-- ==== Sys2Proof/Word.lean ====
section
/-!
DEFINITION. The word types of the block (R7, R8, R9): bytes, 16-bit and 32-bit unsigned values, and the
little-endian assembly of R10. Every quantity of the spec is unsigned.
-/

namespace Sys2Proof

/-- One byte. -/
abbrev Byte := BitVec 8

/-- A configuration quantity in mA or mV, or the message header (R8). -/
abbrev U16 := BitVec 16

/-- A PDO word, a power in mW, or a millisecond count (R8). -/
abbrev U32 := BitVec 32

end Sys2Proof
end

