-- ==== Sys2Proof/Config.lean ====
section
/-!
DEFINITION. What is fixed for one machine and what the spec leaves free.
`DeviceProfile` is the parameter record of R6 (U27: every field is a parameter of the model); the opaque
constants are the free values: what the IC and the clock answer (R28, R145) and what a host read of an
unwritten register returns (R24). The bus types stand here because the IC's free answers depend on them.
-/

namespace Sys2Proof

/-- A bus transaction the block issues (R27): `BusRead(reg, n)` or `BusWrite(reg, bytes)`. -/
inductive BusReq where
  | read (reg : Byte) (n : Nat)
  | write (reg : Byte) (bytes : List Byte)
  deriving DecidableEq, Repr

/-- An outcome of a transaction (R28): `fail`, or success with the bytes read (none for a write). -/
inductive IcAnswer where
  | fail
  | ok (bytes : List Byte)
  deriving DecidableEq, Repr

/-- One event of the block's bus history (R27): the device address every transaction carries, the
transaction, and its outcome. -/
structure BusEvent where
  dev : BitVec 7
  req : BusReq
  answer : IcAnswer
  deriving DecidableEq, Repr

/-- `FIELD_LSB[f]` for the ten NVM fields (R49, R94): the least significant bit of each field in its byte
or 16-bit window. -/
structure FieldMap where
  pdo1Current : Nat
  pdo2Current : Nat
  pdo3Current : Nat
  flexFallbackCurrent : Nat
  pdo2Voltage : Nat
  pdo3Voltage : Nat
  numValidPdos : Nat
  useSrcCurrent : Nat
  onlyAbove5V : Nat
  gpioCfg : Nat
  deriving DecidableEq, Repr

/-- The `DeviceProfile` of R6, field by field. Budgets are milliseconds; `nvmAckBudgetMs = none` is the
unbounded poll of R118. The two budgets whose value the source fixes (500 ms, R146) are the constants
`sinkReadyBudgetMs` and `capsBudgetMs` of Machine/Profile.lean. -/
structure DeviceProfile where
  devAddr : BitVec 7
  regDeviceId : Byte
  idSet : List Byte
  regPortStatus : Byte
  attachMask : Byte
  regPeFsm : Byte
  peSnkReady : Byte
  regPrtStatus : Byte
  msgReceivedMask : Byte
  regRxHeader : Byte
  regRxByteCnt : Byte
  regRxData : Byte
  regTxHeader : Byte
  softResetHdr : Byte
  regPdCmd : Byte
  pdCmdSend : Byte
  regSnkPdo3 : Byte
  regNvmPassword : Byte
  nvmPassword : Byte
  regNvmCtrl0 : Byte
  regNvmCtrl1 : Byte
  regNvmRwbuf : Byte
  ctrl0Pwr : Byte
  ctrl0RstN : Byte
  ctrl0Req : Byte
  ctrl0SectMask : Byte
  ctrl1OpcodeMask : Byte
  ctrl1SerShift : Nat
  ctrl1SerMask : Byte
  opRead : Byte
  opWritePl : Byte
  opWriteSer : Byte
  opEraseSector : Byte
  opProgSector : Byte
  opSoftProgSector : Byte
  eraseAllMask : Byte
  ctrl0ResetValue : Byte
  msgTypeBits : Nat
  srcCapType : BitVec 5
  hdrCountLsb : Nat
  pdoTypeLsb : Nat
  pdoTypeFixed : BitVec 2
  fieldLsb : FieldMap
  attachBudgetMs : Nat
  nvmAckBudgetMs : Option Nat
  /-- The delay between poll reads. No rule reads it (R79). -/
  pollIntervalMs : Nat
  deriving DecidableEq, Repr

/-- Free value (R28, log 7): whether the IC oracle fails a transaction, given the whole history so far. -/
opaque Config.icFails : List BusEvent → BusReq → Bool

/-- Free value (R28, log 7): byte `k` of the IC oracle's answer to a read, given the whole history so far. -/
opaque Config.icByte : List BusEvent → BusReq → Nat → Byte

/-- Free value (R145, log 8): the clock's answer to the `n`-th draw. No monotonicity is assumed. -/
opaque Config.clockSample : Nat → U32

/-- Free value (R24, log 4): what the `n`-th draw gives a host read of a register that is unwritten. -/
opaque Config.unwrittenRead : Nat → U32

end Sys2Proof
end

