-- ==== Sys2Proof/Machine/Profile.lean ====
section
/-!
DEFINITION. The NVM field map and the legality of a `DeviceProfile`.
The field table of R49, the image bits of R95, the legality of R94 with the ranges of R43 and R46 (U19),
the budgets the source fixes (R146), and the values R6 and R114 propose (general knowledge, log 2).
-/

namespace Sys2Proof

/-- The ten NVM fields, in the order of the field table (R49). -/
inductive Field where
  | pdo1Current
  | pdo2Current
  | pdo3Current
  | flexFallbackCurrent
  | pdo2Voltage
  | pdo3Voltage
  | numValidPdos
  | useSrcCurrent
  | onlyAbove5V
  | gpioCfg
  deriving DecidableEq, Repr

/-- The fields in table order (R49, R99). -/
def fieldTable : List Field :=
  [.pdo1Current, .pdo2Current, .pdo3Current, .flexFallbackCurrent, .pdo2Voltage, .pdo3Voltage,
    .numValidPdos, .useSrcCurrent, .onlyAbove5V, .gpioCfg]

/-- R49: the sector of a field. -/
def Field.sector : Field → Nat
  | .pdo1Current => 3
  | .pdo2Current => 3
  | .pdo3Current => 3
  | .flexFallbackCurrent => 4
  | .pdo2Voltage => 4
  | .pdo3Voltage => 4
  | .numValidPdos => 3
  | .useSrcCurrent => 4
  | .onlyAbove5V => 4
  | .gpioCfg => 1

/-- R49: the byte of a field within its sector. -/
def Field.byteInSector : Field → Nat
  | .pdo1Current => 2
  | .pdo2Current => 4
  | .pdo3Current => 5
  | .flexFallbackCurrent => 3
  | .pdo2Voltage => 0
  | .pdo3Voltage => 2
  | .numValidPdos => 2
  | .useSrcCurrent => 6
  | .onlyAbove5V => 6
  | .gpioCfg => 0

/-- R49: the width of a field in bits. -/
def Field.width : Field → Nat
  | .pdo1Current => 4
  | .pdo2Current => 4
  | .pdo3Current => 4
  | .flexFallbackCurrent => 10
  | .pdo2Voltage => 9
  | .pdo3Voltage => 9
  | .numValidPdos => 2
  | .useSrcCurrent => 1
  | .onlyAbove5V => 1
  | .gpioCfg => 2

/-- R49: the fields whose container is the 16-bit window (the others lie in one byte). -/
def Field.isWindow : Field → Bool
  | .flexFallbackCurrent => true
  | .pdo2Voltage => true
  | .pdo3Voltage => true
  | .pdo1Current => false
  | .pdo2Current => false
  | .pdo3Current => false
  | .numValidPdos => false
  | .useSrcCurrent => false
  | .onlyAbove5V => false
  | .gpioCfg => false

/-- R33: image byte (sector `s`, offset `o`) is index `8*s + o`. -/
def Field.index (f : Field) : Nat := 8 * f.sector + f.byteInSector

/-- `FIELD_LSB[f]` (R49). -/
def FieldMap.lsb (m : FieldMap) : Field → Nat
  | .pdo1Current => m.pdo1Current
  | .pdo2Current => m.pdo2Current
  | .pdo3Current => m.pdo3Current
  | .flexFallbackCurrent => m.flexFallbackCurrent
  | .pdo2Voltage => m.pdo2Voltage
  | .pdo3Voltage => m.pdo3Voltage
  | .numValidPdos => m.numValidPdos
  | .useSrcCurrent => m.useSrcCurrent
  | .onlyAbove5V => m.onlyAbove5V
  | .gpioCfg => m.gpioCfg

/-- R95: the image bits of a field, each as (image byte, bit). One form covers both containers: bit `k` of
a byte field with `k < 8` is bit `k` of its own byte. -/
def FieldMap.bits (m : FieldMap) (f : Field) : List (Nat × Nat) :=
  (List.range f.width).map fun j => (f.index + (m.lsb f + j) / 8, (m.lsb f + j) % 8)

/-- R94 (a) for byte fields and R94 (b) for window fields. -/
def FieldMap.fits (m : FieldMap) (f : Field) : Bool :=
  if f.isWindow then
    decide (m.lsb f ≤ 7) && decide (9 ≤ m.lsb f + f.width) && decide (m.lsb f + f.width ≤ 16)
  else
    decide (m.lsb f + f.width ≤ 8)

/-- R94 (d): the image bits of the ten fields are pairwise disjoint. -/
def FieldMap.disjoint (m : FieldMap) : Bool :=
  fieldTable.all fun f => fieldTable.all fun g =>
    decide (f = g) || (m.bits f).all fun b => !(m.bits g).contains b

/-- R94: a legal field map. -/
def FieldMap.legal (m : FieldMap) : Bool :=
  fieldTable.all (fun f => m.fits f) && m.gpioCfg == 4 && m.disjoint

/-- The profiles the block runs under: the ranges of R43 and R46 and the field map of R94 (U19). -/
def DeviceProfile.legal (p : DeviceProfile) : Bool :=
  decide (20 ≤ p.pdoTypeLsb) && decide (p.pdoTypeLsb ≤ 30) &&
  (p.msgTypeBits == 4 || p.msgTypeBits == 5) &&
  decide (p.msgTypeBits ≤ p.hdrCountLsb) && decide (p.hdrCountLsb ≤ 13) &&
  p.fieldLsb.legal

/-- `SINK_READY_BUDGET_MS` (R85, R146). -/
def sinkReadyBudgetMs : Nat := 500

/-- `CAPS_BUDGET_MS` (R87, R146). -/
def capsBudgetMs : Nat := 500

/-- PRESUMED (log 2): `REF_MAP` of R114, general knowledge but for `gpioCfg`. -/
def refMap : FieldMap where
  pdo1Current := 4
  pdo2Current := 0
  pdo3Current := 4
  flexFallbackCurrent := 2
  pdo2Voltage := 6
  pdo3Voltage := 0
  numValidPdos := 1
  useSrcCurrent := 4
  onlyAbove5V := 3
  gpioCfg := 4

/-- PRESUMED (log 2): the values R6 proposes, general knowledge but for `ERASE_ALL_MASK`; no value is proposed
for `NVM_ACK_BUDGET_MS`, and `none` is the choice of log 2. -/
def defaultProfile : DeviceProfile where
  devAddr := 0x28#7
  regDeviceId := 0x2F#8
  idSet := [0x21#8, 0x25#8]
  regPortStatus := 0x0E#8
  attachMask := 0x01#8
  regPeFsm := 0x29#8
  peSnkReady := 0x18#8
  regPrtStatus := 0x16#8
  msgReceivedMask := 0x04#8
  regRxHeader := 0x31#8
  regRxByteCnt := 0x30#8
  regRxData := 0x33#8
  regTxHeader := 0x51#8
  softResetHdr := 0x0D#8
  regPdCmd := 0x1A#8
  pdCmdSend := 0x26#8
  regSnkPdo3 := 0x8D#8
  regNvmPassword := 0x95#8
  nvmPassword := 0x47#8
  regNvmCtrl0 := 0x96#8
  regNvmCtrl1 := 0x97#8
  regNvmRwbuf := 0x53#8
  ctrl0Pwr := 0x80#8
  ctrl0RstN := 0x40#8
  ctrl0Req := 0x10#8
  ctrl0SectMask := 0x07#8
  ctrl1OpcodeMask := 0x07#8
  ctrl1SerShift := 3
  ctrl1SerMask := 0xF8#8
  opRead := 0x00#8
  opWritePl := 0x01#8
  opWriteSer := 0x02#8
  opEraseSector := 0x05#8
  opProgSector := 0x06#8
  opSoftProgSector := 0x07#8
  eraseAllMask := 0x1F#8
  ctrl0ResetValue := 0x00#8
  msgTypeBits := 5
  srcCapType := 1#5
  hdrCountLsb := 12
  pdoTypeLsb := 30
  pdoTypeFixed := 0#2
  fieldLsb := refMap
  attachBudgetMs := 500
  nvmAckBudgetMs := none
  pollIntervalMs := 0

end Sys2Proof
end

