-- ==== Sys2Proof/Machine/RefIc.lean ====
section
/-!
DEFINITION. The reference IC of R30. It is no claim about the real IC and no rule of the block depends on it
(R30); it is here because the test programs of 95_test_vectors.md and the law R133 name it. What R30 leaves
open (a sector above 4, a register number past 255, an opcode outside its table, two opcodes of one value, a
transaction that starts at another register and covers one R30 singles out) is log 9.
-/

namespace Sys2Proof

/-- R30: 256 register bytes, a 40-byte NVM array, the programming latch and the erase mask. -/
structure RefIc where
  regs : Vector Byte 256
  nvm : Vector Byte 40
  latch : Vector Byte 8
  ser : Byte
  deriving DecidableEq, Repr

/-- The register byte at a register number. -/
def RefIc.reg (r : RefIc) (a : Byte) : Byte := r.regs[a.toNat]'a.isLt

/-- Store one register byte. -/
def RefIc.setReg (r : RefIc) (a b : Byte) : RefIc := { r with regs := r.regs.set a.toNat b a.isLt }

/-- R30: byte `k` is stored at `reg + k`. -/
def RefIc.setRegs (r : RefIc) (a : Byte) : List Byte → RefIc
  | [] => r
  | b :: bs => (r.setReg a b).setRegs (a + 1#8) bs

/-- R30: registers `reg .. reg+n-1`. -/
def RefIc.readRegs (r : RefIc) (a : Byte) : Nat → List Byte
  | 0 => []
  | n + 1 => r.reg a :: r.readRegs (a + 1#8) n

/-- The eight NVM bytes of a sector. -/
def RefIc.sectorBytes (r : RefIc) (sect : Nat) : List Byte :=
  (List.range 8).map fun k => (r.nvm[8 * sect + k]?).getD 0#8

/-- Store the bytes of a sector from offset `k` on. -/
def storeSector (nvm : Vector Byte 40) (sect : Nat) : Nat → List Byte → Vector Byte 40
  | _, [] => nvm
  | k, b :: bs => storeSector (nvm.setIfInBounds (8 * sect + k) b) sect (k + 1) bs

/-- R30, `OP_ERASE_SECTOR`: every sector the mask selects becomes 0x00. -/
def eraseSectors (ser : Byte) (nvm : Vector Byte 40) : Vector Byte 40 :=
  (List.range 5).foldl
    (fun v s => if ser.getLsbD s then storeSector v s 0 (List.replicate 8 0#8) else v) nvm

/-- R30: the table of opcode effects, on `CTRL1[2:0]`. DESIGN CHOICE: under a profile that gives two opcode fields
one value, the first of READ, WRITE_PL, WRITE_SER, ERASE_SECTOR, PROG_SECTOR that matches; an opcode field above 7 matches
no request (log 9). -/
def RefIc.perform (p : DeviceProfile) (r : RefIc) : RefIc :=
  let ctrl1 := r.reg p.regNvmCtrl1
  let op := ctrl1 &&& 0x07#8
  let sect := (r.reg p.regNvmCtrl0 &&& p.ctrl0SectMask).toNat
  if op = p.opRead then
    if sect ≤ 4 then r.setRegs p.regNvmRwbuf (r.sectorBytes sect) else r
  else if op = p.opWritePl then
    { r with latch := Vector.ofFn fun k => r.reg (p.regNvmRwbuf + BitVec.ofNat 8 k.val) }
  else if op = p.opWriteSer then
    { r with ser := ctrl1 >>> p.ctrl1SerShift }
  else if op = p.opEraseSector then
    { r with nvm := eraseSectors r.ser r.nvm }
  else if op = p.opProgSector then
    if sect ≤ 4 then { r with nvm := storeSector r.nvm sect 0 r.latch.toList } else r
  else r

/-- R30: a write of `REG_NVM_CTRL0` with the request bit performs the opcode and clears the bit, but only if
the password register holds the unlock byte. -/
def RefIc.request (p : DeviceProfile) (r : RefIc) : RefIc :=
  if r.reg p.regNvmCtrl0 &&& p.ctrl0Req ≠ 0#8 ∧ r.reg p.regNvmPassword = p.nvmPassword then
    let r' := r.perform p
    r'.setReg p.regNvmCtrl0 (r'.reg p.regNvmCtrl0 &&& ~~~p.ctrl0Req)
  else r

/-- R30: the reads the reference IC answers from a test script. DESIGN CHOICE: a read is of the register number it
starts at, whichever others it covers (log 9). -/
def RefIc.scripted (p : DeviceProfile) : BusReq → Bool
  | .read reg _ =>
    reg == p.regRxHeader || reg == p.regRxByteCnt || reg == p.regRxData || reg == p.regPrtStatus
  | .write _ _ => false

/-- R30: the answer to a transaction that no script answers, and the reference IC after it. DESIGN CHOICE: a write is
of the register number it starts at; one that starts elsewhere and covers `REG_NVM_CTRL0` stores its byte and
performs no opcode (log 9). -/
def RefIc.respond (p : DeviceProfile) (r : RefIc) : BusReq → IcAnswer × RefIc
  | .read reg n => (.ok (r.readRegs reg n), r)
  | .write reg bytes =>
    let r' := r.setRegs reg bytes
    (.ok [], if reg = p.regNvmCtrl0 then r'.request p else r')

end Sys2Proof
end

