-- ==== Sys2Proof/Machine/State.lean ====
section
/-!
DEFINITION. The state of the block as plain data: every register of 10_state.md (R15 to R22), the four buffers
as one memory keyed by the host index (R15, R21; log 21), the bus history (R27), the profile (R6; log 1), and
the model's own fields for what the outside world does (logs 6 to 9, 23). Reset is R151.

`none` in an `Option` register is the spec's own value "unwritten" (R24, R151; log 3), never a missing value.
-/

namespace Sys2Proof.Machine

/-- The sequencer states of R18. Codes 20 to 31 are never written (U16), so they have no constructor. -/
inductive SeqState where
  | idle
  | presence
  | waitAttach
  | sinkReadyWait
  | sendSoftReset
  | waitCaps
  | capture
  | select
  | commit
  | renegotiate
  | done
  | failed
  | nvmReadImage
  | nvmPatch
  | nvmErase
  | nvmProgram
  | nvmExit
  | nvmVerifyRead
  | nvmCompare
  | exec
  deriving DecidableEq, Repr

/-- The errors a command can end with (R135). `UnexpectedMessage` is never raised (C8), so it is not here. -/
inductive ErrCode where
  | busError
  | notPresent
  | timeout
  | notAttached
  | payloadSizeMismatch
  | noSuitablePdoFound
  | verifyMismatch
  | invalidConfig
  | illegalCommand
  deriving DecidableEq, Repr

/-- What the host or the platform does next (R13, R152; log 6). -/
inductive Input where
  /-- Nothing: the block takes its next step. -/
  | run
  /-- A host write of a block register (R15). -/
  | hostWrite (idx : Byte) (value : U32)
  /-- A host read of a block register (R15). -/
  | hostRead (idx : Byte)
  /-- The platform asserts reset (R151, R152). -/
  | reset
  deriving DecidableEq, Repr

/-- Which IC is on the bus: the oracle of R28, or the reference IC of R30 (log 9). -/
inductive IcMode where
  | oracle
  | reference (r : RefIc)
  deriving DecidableEq, Repr

/-- The buffer bytes the host or the block has written, by host index, addresses rising; an address that is
not listed is unwritten (R24). -/
abbrev Memory := List Host.Cell

/-- The block (10_state.md) and what stands around it. -/
structure State where
  /-- R6: the parameter record. No step writes it (log 1). -/
  profile : DeviceProfile
  /-- R16: `STATUS.ERR`. -/
  err : BitVec 4
  /-- R16: `STATUS.BUSY`. -/
  busy : Bool
  /-- R16: `STATUS.OK`. -/
  ok : Bool
  /-- R16, R140: `STATUS.FAULT`. -/
  fault : Bool
  /-- R18: `STATE`. -/
  seq : SeqState
  /-- R17: `CTRL.CLK_PRESENT`. -/
  clkPresent : Bool
  /-- R17: `CTRL.ON_INTERRUPT`. -/
  onInterrupt : Bool
  arg0 : Option U32
  arg1 : Option U32
  res0 : U32
  res1 : U32
  res2 : U32
  negMinI : Option U16
  negMinV : Option U16
  negMaxV : Option U16
  nvcPdo1I : Option U16
  nvcPdo2V : Option U16
  nvcPdo2I : Option U16
  nvcPdo3V : Option U16
  nvcPdo3I : Option U16
  nvcFlexI : Option U16
  /-- R17: the four fields of `NVC_FLAGS`. -/
  numValid : Option (BitVec 2)
  useSrc : Option Bool
  onlyAbove5V : Option Bool
  gpioCfg : Option (BitVec 2)
  capCount : Option Byte
  rxHdr : Option U16
  /-- R15, R21: `CAP_BUF`, `NVM_IMG`, `NVM_SCRATCH`, `NVM_VERIFY`. -/
  mem : Memory
  /-- R19, R22. -/
  mstep : BitVec 8
  tStart : U32
  selFound : Bool
  selBestP : U32
  selBestIdx : BitVec 3
  selI : BitVec 3
  selWord : U32
  sect : BitVec 3
  curCmd : BitVec 4
  /-- R27: the bus history, oldest event first. -/
  trace : List BusEvent
  /-- Model's own (log 6): what the host and the platform do next. -/
  inputs : List Input
  /-- Model's own (log 9): which IC answers. -/
  ic : IcMode
  /-- Model's own (log 7): answers the IC is known to give next. -/
  icScript : List IcAnswer
  /-- Model's own (log 8): samples the clock is known to give next. -/
  clkScript : List U32
  /-- Model's own (logs 4, 8): counts the free values drawn. -/
  draws : Nat
  /-- Model's own (log 23): what the last host read returned. -/
  hostRdata : Option U32
  deriving DecidableEq, Repr

/-- R151: reset under a profile. Hidden registers the spec leaves unspecified are 0 (log 5). -/
def State.resetWith (p : DeviceProfile) : State where
  profile := p
  err := 0#4
  busy := false
  ok := false
  fault := false
  seq := .idle
  clkPresent := false
  onInterrupt := false
  arg0 := none
  arg1 := none
  res0 := 0#32
  res1 := 0#32
  res2 := 0#32
  negMinI := none
  negMinV := none
  negMaxV := none
  nvcPdo1I := none
  nvcPdo2V := none
  nvcPdo2I := none
  nvcPdo3V := none
  nvcPdo3I := none
  nvcFlexI := none
  numValid := none
  useSrc := none
  onlyAbove5V := none
  gpioCfg := none
  capCount := none
  rxHdr := none
  mem := []
  mstep := 0#8
  tStart := 0#32
  selFound := false
  selBestP := 0#32
  selBestIdx := 0#3
  selI := 0#3
  selWord := 0#32
  sect := 0#3
  curCmd := 0#4
  trace := []
  inputs := []
  ic := .oracle
  icScript := []
  clkScript := []
  draws := 0
  hostRdata := none

/-- The machine right after reset, under the profile values R6 and R114 propose (log 2). -/
def State.reset : State := State.resetWith defaultProfile

/-- Why the model stops with a fault. Both name positions of the sequencer that no rule lists and no run from
reset reaches (log 20), and both are safe. What the spec itself calls a fault is `STATUS.FAULT`, a next state. -/
inductive Fault where
  /-- Raised by a command's micro-step (and by `blockStep`) at a (`STATE`, `MSTEP`, `CUR_CMD`) that no rule
  lists (R19). Safe. -/
  | noSuchMicroStep
  /-- Raised by the buffer read of `ReadSector` when `SECT` is above 4, a sector that does not exist (R33).
  Safe. -/
  | sectorOutOfRange
  deriving DecidableEq, Repr

/-- Why the model gives no step. -/
inductive Refusal where
  /-- An instruction that has no meaning yet; raised by `exec` alone. Safe. -/
  | notModelled (mnemonic : String)
  /-- R94, R140: no command runs under a `DeviceProfile` that is not legal; raised by `step` and by every
  command. Safe (log 24). -/
  | illegalProfile
  deriving DecidableEq, Repr

/-- The outcome of one step of the block. -/
abbrev Out := Host.Outcome State Fault Refusal

end Sys2Proof.Machine
end

