-- ==== Sys2Proof/Syntax.lean ====
section
/-!
DEFINITION. The commands of the block: one constructor per row of spec/opcode_table.json (R51, R53, R54).
A command has no operand fields (R51). The row ILLEGAL_OPC is the illegal space: its constructor keeps the
byte the host wrote, so that no bit of the word is lost (log 29).
-/

namespace Sys2Proof

/-- The ten commands (R53) and the illegal space (R138). -/
inductive Instr where
  /-- `CMD = 0x01` (R63). -/
  | pdoDecode
  /-- `CMD = 0x02` (R64). -/
  | pdoEncode
  /-- `CMD = 0x03` (R65). -/
  | pdoPower
  /-- `CMD = 0x04` (R69). -/
  | hdrClassify
  /-- `CMD = 0x05` (R76). -/
  | pdoSelect
  /-- `CMD = 0x06` (R82). -/
  | presence
  /-- `CMD = 0x07` (R83). -/
  | negotiate
  /-- `CMD = 0x08` (R123). -/
  | nvmRead
  /-- `CMD = 0x09` (R110). -/
  | nvmPatch
  /-- `CMD = 0x0A` (R126). -/
  | nvmFlash
  /-- Every other byte (R54, R138). -/
  | illegalOpc (word : Byte)
  deriving DecidableEq, Repr

end Sys2Proof
end

