-- ==== Sys2Proof/WellFormed.lean ====
section
/-!
DEFINITION. Well-formed commands: `illegalOpc` carries a byte of the illegal space only (R54).
The legality of a `DeviceProfile` (R43, R46, R94) is `DeviceProfile.legal` in Machine/Profile.lean.
-/

namespace Sys2Proof

/-- R54, R138: `OPC` is 0x0 or 0xB to 0xF, or `RSV` is not 0. -/
def illegalWord (word : Byte) : Bool :=
  word.extractLsb' 4 4 != 0#4 || word.extractLsb' 0 4 == 0#4 || decide (11#4 ≤ word.extractLsb' 0 4)

/-- A command as the syntax may hold it. -/
def Instr.wf : Instr → Bool
  | .illegalOpc word => illegalWord word
  | .pdoDecode => true
  | .pdoEncode => true
  | .pdoPower => true
  | .hdrClassify => true
  | .pdoSelect => true
  | .presence => true
  | .negotiate => true
  | .nvmRead => true
  | .nvmPatch => true
  | .nvmFlash => true

end Sys2Proof
end

