-- ==== Sys2Proof/Decode.lean ====
section
/-!
DEFINITION. The command word (R51, R53, R54): the decoder, total on any bytes, and the encoder written from the
same opcode map. One command is one byte; a decoder reads one byte (R51).
-/

namespace Sys2Proof

/-- Why a byte list holds no command: it holds no byte. Every byte decodes (R54: the illegal space is a
command word with a defined result). -/
inductive DecodeError where
  | noByte
  deriving DecidableEq, Repr

/-- R53: the opcode map on `OPC`, for `RSV = 0`. -/
def decodeOpc (opc : BitVec 4) : Option Instr :=
  match opc.toNat with
  | 0x1 => some .pdoDecode
  | 0x2 => some .pdoEncode
  | 0x3 => some .pdoPower
  | 0x4 => some .hdrClassify
  | 0x5 => some .pdoSelect
  | 0x6 => some .presence
  | 0x7 => some .negotiate
  | 0x8 => some .nvmRead
  | 0x9 => some .nvmPatch
  | 0xA => some .nvmFlash
  | _ => none

/-- R51, R53, R54: `OPC` is bits 3:0 and `RSV` is bits 7:4. -/
def decodeByte (word : Byte) : Instr :=
  if word.extractLsb' 4 4 = 0#4 then
    (decodeOpc (word.extractLsb' 0 4)).getD (.illegalOpc word)
  else
    .illegalOpc word

/-- The decoder: one command and the bytes after it. -/
def decode : List Byte → Except DecodeError (Instr × List Byte)
  | [] => .error .noByte
  | word :: rest => .ok (decodeByte word, rest)

/-- R53: the word of a command. -/
def encodeByte : Instr → Byte
  | .pdoDecode => 0x01#8
  | .pdoEncode => 0x02#8
  | .pdoPower => 0x03#8
  | .hdrClassify => 0x04#8
  | .pdoSelect => 0x05#8
  | .presence => 0x06#8
  | .negotiate => 0x07#8
  | .nvmRead => 0x08#8
  | .nvmPatch => 0x09#8
  | .nvmFlash => 0x0A#8
  | .illegalOpc word => word

/-- The encoder: the bytes of a well-formed command. -/
def encode (i : Instr) : List Byte := [encodeByte i]

/-- The bytes of a table word of `nbits` bits, first byte least significant, at least one byte. -/
def tableBytes (nbits w : Nat) : List Byte :=
  (List.range (max 1 (nbits / 8))).map fun k => BitVec.ofNat 8 ((w % 2 ^ nbits) >>> (8 * k))

/-- The command the decoder reads from a table word, numbered as spec/opcode_table.json numbers its bits. -/
def decodeTableWord (nbits w : Nat) : Option Instr :=
  match decode (tableBytes nbits w) with
  | .ok (i, _) => some i
  | .error _ => none

end Sys2Proof
end

