-- ==== Sys2Proof/Machine/Flags.lean ====
section
/-!
DEFINITION. The status fields: the numbers of the errors (R135) and of the sequencer states (R18), and the
bytes a host read of `STATUS`, `STATE`, `CTRL` and `NVC_FLAGS` returns (R16, R17, R18).
-/

namespace Sys2Proof.Machine

/-- R135: the code of an error in `STATUS.ERR`. Code 5 (`UnexpectedMessage`) is never written (C8). -/
def errNumber : ErrCode → BitVec 4
  | .busError => 1#4
  | .notPresent => 2#4
  | .timeout => 3#4
  | .notAttached => 4#4
  | .payloadSizeMismatch => 6#4
  | .noSuitablePdoFound => 7#4
  | .verifyMismatch => 8#4
  | .invalidConfig => 9#4
  | .illegalCommand => 10#4

/-- R18: the code of a sequencer state in bits 4:0 of `STATE`. -/
def seqNumber : SeqState → BitVec 5
  | .idle => 0#5
  | .presence => 1#5
  | .waitAttach => 2#5
  | .sinkReadyWait => 3#5
  | .sendSoftReset => 4#5
  | .waitCaps => 5#5
  | .capture => 6#5
  | .select => 7#5
  | .commit => 8#5
  | .renegotiate => 9#5
  | .done => 10#5
  | .failed => 11#5
  | .nvmReadImage => 12#5
  | .nvmPatch => 13#5
  | .nvmErase => 14#5
  | .nvmProgram => 15#5
  | .nvmExit => 16#5
  | .nvmVerifyRead => 17#5
  | .nvmCompare => 18#5
  | .exec => 19#5

/-- One bit. -/
def bit (b : Bool) : BitVec 1 := if b then 1#1 else 0#1

/-- R16: `STATUS` as one byte; bit 6 reads 0. -/
def statusByte (s : State) : Byte := bit s.fault ++ 0#1 ++ bit s.ok ++ bit s.busy ++ s.err

/-- R18: `STATE` as one byte; bits 7:5 read 0. -/
def stateByte (s : State) : Byte := (seqNumber s.seq).setWidth 8

/-- R17: `CTRL` as one byte; bits 7:2 read 0. -/
def ctrlByte (s : State) : Byte := 0#6 ++ bit s.onInterrupt ++ bit s.clkPresent

/-- R17: `NVC_FLAGS` as one byte; bits 7:6 read 0. A field that is unwritten reads as the bits of `draw`
(log 4). -/
def flagsByte (s : State) (draw : U32) : Byte :=
  0#2 ++ s.gpioCfg.getD (draw.extractLsb' 4 2) ++ bit (s.onlyAbove5V.getD (draw.getLsbD 3))
    ++ bit (s.useSrc.getD (draw.getLsbD 2)) ++ s.numValid.getD (draw.extractLsb' 0 2)

end Sys2Proof.Machine
end

