-- ==== Sys2Proof/Machine/Ops.lean ====
section
/-!
DEFINITION. The named operations over buffers, registers, the bus and the clock: the buffer memory (R15, R21,
R33), bus transactions (R27 to R29), clock samples (R145, R146), command issue (R56), the successful end (R57),
raising an error (R137), the fault (R140), reset (R151 to R153) and the poll step (R78).
-/

namespace Sys2Proof.Machine

/-! ## The buffer memory -/

/-- R15: the host index of `CAP_BUF[0]`. -/
def capBase : Nat := 0x20
/-- R15: the host index of `NVM_IMG[0]`. -/
def imgBase : Nat := 0x48
/-- R15: the host index of `NVM_SCRATCH[0]`. -/
def scratchBase : Nat := 0x70
/-- R15: the host index of `NVM_VERIFY[0]`. -/
def verifyBase : Nat := 0x98
/-- R15: one past the host index of the last buffer byte. -/
def bufEnd : Nat := 0xC0

/-- Read one buffer byte; `none` where nothing has written it (R24). What an unlisted address reads as is
this `none` (log 21). -/
def Memory.get : Memory → Nat → Option Byte
  | [], _ => none
  | (k, b) :: m, a => if a = k then some b else Memory.get m a

/-- Write one buffer byte, keeping the addresses rising. -/
def Memory.set : Memory → Nat → Byte → Memory
  | [], a, b => [(a, b)]
  | (k, c) :: m, a, b =>
    if a < k then (a, b) :: (k, c) :: m
    else if a = k then (a, b) :: m
    else (k, c) :: Memory.set m a b

/-- Write consecutive buffer bytes. -/
def Memory.setBytes : Memory → Nat → List Byte → Memory
  | m, _, [] => m
  | m, a, b :: bs => Memory.setBytes (Memory.set m a b) (a + 1) bs

/-- Addresses rise strictly from `lo` on and stay below `bufEnd`. -/
def Memory.rising : Nat → Memory → Bool
  | _, [] => true
  | lo, (k, _) :: m => decide (lo ≤ k) && decide (k < bufEnd) && Memory.rising (k + 1) m

/-- The canonical form: addresses strictly rising, inside the buffers 0x20 to 0xBF (R15). No entry can equal
what an unlisted address reads as, since that is no value. -/
def Memory.wf (m : Memory) : Bool := Memory.rising capBase m

/-- Read `n` consecutive buffer bytes, `none` if one of them is unwritten. -/
def Memory.getBytes (m : Memory) (a : Nat) : Nat → Option (List Byte)
  | 0 => some []
  | n + 1 =>
    match Memory.get m a, Memory.getBytes m (a + 1) n with
    | some b, some bs => some (b :: bs)
    | _, _ => none

/-! ## Byte order (R31) -/

/-- R10: `le16(b0, b1) = {b1, b0}`. -/
def le16 (b0 b1 : Byte) : U16 := b1 ++ b0

/-- R10: `le32(b0, b1, b2, b3) = {b3, b2, b1, b0}`. -/
def le32 (b0 b1 b2 b3 : Byte) : U32 := b3 ++ b2 ++ b1 ++ b0

/-- R36: the four bytes of a word, least significant first. -/
def bytesOf32 (w : U32) : List Byte :=
  [w.extractLsb' 0 8, w.extractLsb' 8 8, w.extractLsb' 16 8, w.extractLsb' 24 8]

/-! ## The sequencer's moves -/

/-- R10, R19: `goto S`; a transition to a new state resets `MSTEP`. -/
def goto (st : SeqState) (s : State) : State := { s with seq := st, mstep := 0#8 }

/-- R19: the next micro-step of the same state. -/
def advance (s : State) : State := { s with mstep := s.mstep + 1#8 }

/-- R87: the micro-step a state's rule names. -/
def gotoStep (k : Nat) (s : State) : State := { s with mstep := BitVec.ofNat 8 k }

/-- R56: command issue. -/
def issue (opc : BitVec 4) (start : SeqState) (s : State) : State :=
  goto start { s with err := 0#4, ok := false, busy := true, curCmd := opc }

/-- R57: the successful end of a command. -/
def endOk (s : State) : State :=
  { s with seq := .done, err := 0#4, ok := true, busy := false, mstep := 0#8 }

/-- R137, R142: raising an error. Nothing is saved, no mode changes; `STATE` becomes `FAILED`. -/
def raise (e : ErrCode) (s : State) : State :=
  { s with seq := .failed, err := errNumber e, ok := false, busy := false, mstep := 0#8 }

/-- R140: a fault. Nothing else changes; `BUSY` keeps its value. -/
def setFault (s : State) : State := { s with fault := true }

/-- R151 to R153: reset. Every register takes its reset value; the history of the bus, what the outside world
does next, and the IC stay (log 23). -/
def resetBlock (s : State) : State :=
  { State.resetWith s.profile with
    trace := s.trace
    inputs := s.inputs
    ic := s.ic
    icScript := s.icScript
    clkScript := s.clkScript
    draws := s.draws
    hostRdata := s.hostRdata }

/-! ## Bus transactions (R27 to R29) -/

/-- An answer of the IC in the form R28 gives: a read returns exactly `n` bytes. Bytes a scripted answer does
not give are free (log 7). -/
def shapeAnswer (history : List BusEvent) (req : BusReq) : IcAnswer → IcAnswer
  | .fail => .fail
  | .ok bytes =>
    match req with
    | .read _ n => .ok ((List.range n).map fun k => bytes.getD k (Config.icByte history req k))
    | .write _ _ => .ok []

/-- R28: the oracle's next answer when no script gives one: free (log 7). -/
def freeAnswer (history : List BusEvent) (req : BusReq) : IcAnswer :=
  if Config.icFails history req then .fail else shapeAnswer history req (.ok [])

/-- R28: the oracle's next answer. -/
def oracleAnswer (s : State) (req : BusReq) : IcAnswer :=
  match s.icScript with
  | [] => freeAnswer s.trace req
  | a :: _ => shapeAnswer s.trace req a

/-- R30: the reference IC never fails a transaction. -/
def neverFail (history : List BusEvent) (req : BusReq) : IcAnswer → IcAnswer
  | .fail => shapeAnswer history req (.ok [])
  | .ok bytes => .ok bytes

/-- R28, R30: the answer the IC gives to a transaction. -/
def icAnswer (s : State) (req : BusReq) : IcAnswer :=
  match s.ic with
  | .oracle => oracleAnswer s req
  | .reference r =>
    if RefIc.scripted s.profile req then neverFail s.trace req (oracleAnswer s req)
    else (r.respond s.profile req).1

/-- The IC after a transaction. -/
def icAfter (s : State) (req : BusReq) : IcMode :=
  match s.ic with
  | .oracle => .oracle
  | .reference r =>
    if RefIc.scripted s.profile req then .reference r else .reference (r.respond s.profile req).2

/-- The script left after a transaction. -/
def scriptAfter (s : State) (req : BusReq) : List IcAnswer :=
  match s.ic with
  | .oracle => s.icScript.tail
  | .reference _ => if RefIc.scripted s.profile req then s.icScript.tail else s.icScript

/-- R27, R29: the event a transaction leaves in the history. -/
def busEvent (s : State) (req : BusReq) : BusEvent :=
  { dev := s.profile.devAddr, req := req, answer := icAnswer s req }

/-- R27, R29: one transaction happens: it is recorded, and the IC moves on. Block registers do not change. -/
def afterBus (s : State) (req : BusReq) : State :=
  { s with
    trace := s.trace ++ [busEvent s req]
    ic := icAfter s req
    icScript := scriptAfter s req }

/-- R10: `BusRead(reg, n)`, with what follows it on success and on `fail`. -/
def busReadOr (reg : Byte) (n : Nat) (onFail : State → Out) (k : List Byte → State → Out) (s : State) : Out :=
  match icAnswer s (.read reg n) with
  | .fail => onFail (afterBus s (.read reg n))
  | .ok bytes => k bytes (afterBus s (.read reg n))

/-- R28: a `fail` raises `BusError` at that transaction. -/
def busError (s : State) : Out := .next (raise .busError s)

/-- R10: `BusRead(reg, n)`; a `fail` is `BusError`. -/
def busRead (reg : Byte) (n : Nat) (k : List Byte → State → Out) (s : State) : Out :=
  busReadOr reg n busError k s

/-- R10: `BusWrite(reg, bytes)`; a `fail` is `BusError`. -/
def busWrite (reg : Byte) (bytes : List Byte) (k : State → Out) (s : State) : Out :=
  match icAnswer s (.write reg bytes) with
  | .fail => busError (afterBus s (.write reg bytes))
  | .ok _ => k (afterBus s (.write reg bytes))

/-- `b[0]` of a read of at least one byte. -/
def byte0 (bytes : List Byte) : Byte := bytes.getD 0 0#8

/-! ## The clock (R145, R146) -/

/-- R145: what `Now()` returns. -/
def clockNow (s : State) : U32 :=
  match s.clkScript with
  | [] => Config.clockSample s.draws
  | t :: _ => t

/-- The clock has been sampled once. -/
def afterNow (s : State) : State :=
  match s.clkScript with
  | [] => { s with draws := s.draws + 1 }
  | _ :: rest => { s with clkScript := rest }

/-- R146: `elapsed(now, start) = (now - start) mod 2^32`. -/
def elapsed (now start : U32) : U32 := now - start

/-- R146: a budget is exceeded when the elapsed time is greater. -/
def exceeded (now start : U32) (budget : Nat) : Bool := decide (budget < (elapsed now start).toNat)

/-- R78 P0, R87 W0: `T_START <- Now()`. -/
def sampleStart (s : State) : State := { afterNow s with tStart := clockNow s }

/-- R78, R147: the bound of a poll, if it has one: it needs a clock and a budget. -/
def bound (s : State) (budget : Option Nat) : Option Nat := if s.clkPresent then budget else none

/-- R78 P0: sample the start of a bounded poll. -/
def pollStart (budget : Option Nat) (s : State) : State :=
  match bound s budget with
  | none => s
  | some _ => sampleStart s

/-- R78, R87 WT: the time check of a poll whose read did not satisfy it: `raise e` when the budget is exceeded,
else `again`. -/
def timeCheck (budget : Option Nat) (e : ErrCode) (again : State → State) (s : State) : Out :=
  match bound s budget with
  | none => .next (again s)
  | some b =>
    if exceeded (clockNow s) s.tStart b then .next (raise e (afterNow s))
    else .next (again (afterNow s))

/-- R78 P1: one iteration of a poll: read, then the condition, then the time. -/
def pollRead (reg : Byte) (done : Byte → Bool) (budget : Option Nat) (e : ErrCode) (k : State → State)
    (s : State) : Out :=
  busRead reg 1 (fun bytes t => if done (byte0 bytes) then .next (k t) else timeCheck budget e id t) s

/-! ## Command lifecycle (R56, R58, R140, R25) -/

/-- The step of the command `opc` (log 10): its issue by a host write of `CMD` when the block is not busy (R56),
its next micro-step when it is in progress (R19); nothing when the block is faulted (R140); a host duty
violation when another command is in progress (R25, log 27); refused under an illegal profile (R94, R140). -/
def underCommand (opc : BitVec 4) (start : State → Out) (body : State → Out) (s : State) : Out :=
  if s.profile.legal = false then .refused .illegalProfile
  else if s.fault then .next s
  else if s.busy = false then start s
  else if s.curCmd = opc then body s
  else .next (setFault s)

/-- R58: a pure command is issued into `EXEC` and takes one step there. -/
def pureCommand (opc : BitVec 4) (body : State → Out) (s : State) : Out :=
  underCommand opc (fun s => .next (issue opc .exec s))
    (fun s => match s.seq with
      | .exec => body s
      | _ => .fault .noSuchMicroStep) s

/-- R24, R58, R140: a step that would read an unwritten operand does nothing but set `STATUS.FAULT`. -/
def withOperand {α : Type} (operand : Option α) (k : α → State → Out) (s : State) : Out :=
  match operand with
  | none => .next (setFault s)
  | some v => k v s

end Sys2Proof.Machine
end

