-- ==== Sys2Proof/Machine/Operands.lean ====
section
/-!
DEFINITION. The operands of the commands (R52, R53): each is `none` when a register it reads is unwritten
(R24), so that the step that reads it sets `STATUS.FAULT` (R58, R140).
-/

namespace Sys2Proof.Machine

/-- R52: `ARG[15:0]`; the upper half is ignored. -/
def low16 (w : U32) : U16 := w.extractLsb' 0 16

/-- R52: the mA and mV operands of `PDO_ENCODE` and `PDO_POWER`. -/
def ampVoltOperands (s : State) : Option (U16 × U16) :=
  match s.arg0, s.arg1 with
  | some c, some v => some (low16 c, low16 v)
  | _, _ => none

/-- R15, R76: `CAP_COUNT[2:0]`; bits 7:3 are ignored. -/
def objectCount (capCount : Byte) : Nat := (capCount.extractLsb' 0 3).toNat

/-- R35, R71: words from captured bytes, four at a time, least significant byte first. -/
def wordsOf : List Byte → List U32
  | b0 :: b1 :: b2 :: b3 :: rest => le32 b0 b1 b2 b3 :: wordsOf rest
  | _ => []

/-- R71: the PDO words of the capture. -/
def captureWords (s : State) : Option (List U32) :=
  match s.capCount with
  | none => none
  | some n => (Memory.getBytes s.mem capBase (4 * objectCount n)).map wordsOf

/-- The negotiation configuration (R15, R72). -/
structure NegConfig where
  minI : U16
  minV : U16
  maxV : U16
  deriving DecidableEq, Repr

/-- R72, R83: the `NEG_*` registers. -/
def negConfig (s : State) : Option NegConfig :=
  match s.negMinI, s.negMinV, s.negMaxV with
  | some i, some v, some w => some ⟨i, v, w⟩
  | _, _, _ => none

/-- R76: every operand of the selection. -/
def selectOperands (s : State) : Option (List U32 × NegConfig) :=
  match captureWords s, negConfig s with
  | some words, some cfg => some (words, cfg)
  | _, _ => none

/-- The NVM configuration (R15, R17, R98). -/
structure NvmConfig where
  pdo1I : U16
  pdo2V : U16
  pdo2I : U16
  pdo3V : U16
  pdo3I : U16
  flexI : U16
  numValid : BitVec 2
  useSrc : Bool
  onlyAbove5V : Bool
  gpioCfg : BitVec 2
  deriving DecidableEq, Repr

/-- R98: every `NVC_*` register and field; `none` if any is unwritten. -/
def nvmConfig (s : State) : Option NvmConfig :=
  match s.nvcPdo1I, s.nvcPdo2V, s.nvcPdo2I, s.nvcPdo3V, s.nvcPdo3I, s.nvcFlexI with
  | some p1i, some p2v, some p2i, some p3v, some p3i, some fx =>
    match s.numValid, s.useSrc, s.onlyAbove5V, s.gpioCfg with
    | some n, some u, some o, some g => some ⟨p1i, p2v, p2i, p3v, p3i, fx, n, u, o, g⟩
    | _, _, _, _ => none
  | _, _, _, _, _, _ => none

/-- An NVM image (R7, R21): 40 bytes. -/
abbrev Image := Vector Byte 40

/-- An image from a list of bytes. -/
def imageOf (bytes : List Byte) : Image := Vector.ofFn fun j => bytes.getD j.val 0#8

/-- R21: the image a buffer holds; `none` if one of its 40 bytes is unwritten. -/
def bufferImage (m : Memory) (base : Nat) : Option Image := (Memory.getBytes m base 40).map imageOf

/-- Write an image into a buffer. -/
def storeImage (m : Memory) (base : Nat) (img : Image) : Memory := Memory.setBytes m base img.toList

end Sys2Proof.Machine
end

