-- ==== Sys2Proof/Machine/Codec.lean ====
section
/-!
DEFINITION. The PDO codec (40_pdo_codec.md): `pdo_decode` (R59), the fixed-supply test (R60), `pdo_encode`
(R61), `power_mW` (R62), and the commands PDO_DECODE (R63), PDO_ENCODE (R64), PDO_POWER (R65).
-/

namespace Sys2Proof.Machine

/-- R43, R59: bits 9:0 in units of 10 mA. -/
def pdoCurrent (w : U32) : U16 := (w.extractLsb' 0 10).setWidth 16 * 10#16

/-- R43, R59: bits 19:10 in units of 50 mV. -/
def pdoVoltage (w : U32) : U16 := (w.extractLsb' 10 10).setWidth 16 * 50#16

/-- R43, R59: the two type bits at `PDO_TYPE_LSB`. -/
def pdoType (p : DeviceProfile) (w : U32) : BitVec 2 := w.extractLsb' p.pdoTypeLsb 2

/-- R60: the only type test the block makes. -/
def pdoIsFixed (p : DeviceProfile) (w : U32) : Bool := pdoType p w == p.pdoTypeFixed

/-- R45, R61: truncating division, each quotient masked to 10 bits. -/
def pdoEncode (c v : U16) : U32 :=
  ((c / 10#16) &&& 0x3FF#16).setWidth 32 ||| (((v / 50#16) &&& 0x3FF#16).setWidth 32 <<< 10)

/-- R62: `mA * mV / 1000`, truncating. -/
def powerMw (c v : U16) : U32 := (c.setWidth 32 * v.setWidth 32) / 1000#32

/-- R63: `PDO_DECODE`. -/
def execPdoDecode (s : State) : Out :=
  pureCommand 0x1#4
    (fun s => withOperand s.arg0
      (fun w s => .next (endOk { s with
        res0 := (pdoCurrent w).setWidth 32
        res1 := (pdoVoltage w).setWidth 32
        res2 := (pdoType s.profile w).setWidth 32 })) s) s

/-- R64: `PDO_ENCODE`. -/
def execPdoEncode (s : State) : Out :=
  pureCommand 0x2#4
    (fun s => withOperand (ampVoltOperands s)
      (fun cv s => .next (endOk { s with res0 := pdoEncode cv.1 cv.2 })) s) s

/-- R65: `PDO_POWER`. -/
def execPdoPower (s : State) : Out :=
  pureCommand 0x3#4
    (fun s => withOperand (ampVoltOperands s)
      (fun cv s => .next (endOk { s with res0 := powerMw cv.1 cv.2 })) s) s

end Sys2Proof.Machine
end

