-- ==== Sys2Proof/Machine/Caps.lean ====
section
/-!
DEFINITION. Capabilities unpack and selection (41_caps_select.md): header classification (R46, R47, R68) and
HDR_CLASSIFY (R69), the candidate test (R72), the baseline (R73), the selector (R74) and PDO_SELECT (R76).
-/

namespace Sys2Proof.Machine

/-- R46, R68: the 3-bit object count at `HDR_COUNT_LSB`. -/
def hdrCount (p : DeviceProfile) (h : U16) : BitVec 3 := h.extractLsb' p.hdrCountLsb 3

/-- R46, R68: the message type, bits `MSG_TYPE_BITS-1` to 0, in 5 bits. -/
def hdrType (p : DeviceProfile) (h : U16) : BitVec 5 := BitVec.ofNat 5 (h.toNat % 2 ^ p.msgTypeBits)

/-- R47, R68: a capabilities header. -/
def hdrIsCaps (p : DeviceProfile) (h : U16) : Bool :=
  hdrCount p h != 0#3 && hdrType p h == p.srcCapType

/-- R69: `HDR_CLASSIFY`. -/
def execHdrClassify (s : State) : Out :=
  pureCommand 0x4#4
    (fun s => withOperand s.arg0
      (fun w s => .next (endOk { s with
        res0 := (hdrCount s.profile (low16 w)).setWidth 32
        res1 := (hdrType s.profile (low16 w)).setWidth 32
        res2 := if hdrIsCaps s.profile (low16 w) then 1#32 else 0#32 })) s) s

/-- R72: the candidate test; both voltage bounds are inclusive. -/
def candidate (p : DeviceProfile) (cfg : NegConfig) (w : U32) : Bool :=
  pdoIsFixed p w && decide (cfg.minI ≤ pdoCurrent w) && decide (cfg.minV ≤ pdoVoltage w)
    && decide (pdoVoltage w ≤ cfg.maxV)

/-- The power of a PDO word (R62, R74). -/
def pdoPower (w : U32) : U32 := powerMw (pdoCurrent w) (pdoVoltage w)

/-- R73: the floor a candidate must exceed. -/
def baseline (cfg : NegConfig) : U32 := powerMw cfg.minI cfg.minV

/-- The selector's registers while it runs (R22, R74). -/
structure Selection where
  found : Bool
  bestP : U32
  bestIdx : BitVec 3
  i : BitVec 3
  deriving DecidableEq, Repr

/-- R74: one pass of the loop body. -/
def selectOne (p : DeviceProfile) (cfg : NegConfig) (i : Nat) (w : U32) (sel : Selection) : Selection :=
  if candidate p cfg w && decide (sel.bestP < pdoPower w) then
    { found := true, bestP := pdoPower w, bestIdx := BitVec.ofNat 3 i, i := BitVec.ofNat 3 i }
  else
    { sel with i := BitVec.ofNat 3 i }

/-- R74: the loop over the words of the capture, ascending from index `i`. -/
def selectFrom (p : DeviceProfile) (cfg : NegConfig) : Nat → List U32 → Selection → Selection
  | _, [], sel => sel
  | i, w :: ws, sel => selectFrom p cfg (i + 1) ws (selectOne p cfg i w sel)

/-- R74: `pdo_select`, from the registers the block holds when it starts. -/
def pdoSelect (s : State) (words : List U32) (cfg : NegConfig) : Selection :=
  selectFrom s.profile cfg 0 words
    { found := false, bestP := baseline cfg, bestIdx := s.selBestIdx, i := s.selI }

/-- R74: the word at the selected index. -/
def selectedWord (words : List U32) (sel : Selection) : U32 := words.getD sel.bestIdx.toNat 0#32

/-- R22, R74: the selector's registers are written. -/
def keepSelection (sel : Selection) (s : State) : State :=
  { s with selFound := sel.found, selBestP := sel.bestP, selBestIdx := sel.bestIdx, selI := sel.i }

/-- R74, R76, R89: run the selection and write the selector's registers; then `NoSuitablePdoFound` when no
candidate exceeds the baseline (R137, D42: nothing written before the raise is restored, log 14), else go on with the
selected word. -/
def withSelection (k : U32 → Selection → State → Out) (s : State) : Out :=
  withOperand (selectOperands s)
    (fun ops s =>
      let sel := pdoSelect s ops.1 ops.2
      if sel.found then k (selectedWord ops.1 sel) sel (keepSelection sel s)
      else .next (raise .noSuitablePdoFound (keepSelection sel s))) s

/-- R76: `PDO_SELECT`. -/
def execPdoSelect (s : State) : Out :=
  pureCommand 0x5#4
    (withSelection fun w sel s => .next (endOk { s with
      res0 := w
      res1 := sel.bestP
      res2 := sel.bestIdx.setWidth 32 })) s

end Sys2Proof.Machine
end

