-- ==== Sys2Proof/Machine/Illegal.lean ====
section
/-!
DEFINITION. The illegal space of the command word (R54, R138): `IllegalCommand`.
-/

namespace Sys2Proof.Machine

/-- R138: an illegal command word ends at once in `FAILED` with `IllegalCommand`; `CUR_CMD`, `RES*` and the
buffers do not change, and which illegal byte it was makes no difference. Like every `CMD` write it is ignored
by a faulted block (R140) and a duty violation at a busy one (R25, R56). -/
def execIllegalOpc (_word : Byte) (s : State) : Out :=
  if s.profile.legal = false then .refused .illegalProfile
  else if s.fault then .next s
  else if s.busy then .next (setFault s)
  else .next (raise .illegalCommand s)

end Sys2Proof.Machine
end

