-- ==== Sys2Proof/Machine/Negotiate.lean ====
section
/-!
DEFINITION. The negotiation sequencer (42_negotiation.md): the presence check (R81) and PRESENCE (R82), and
NEGOTIATE (R83) with its states WAIT_ATTACH (R84), SINK_READY_WAIT (R85), SEND_SOFT_RESET (R86), WAIT_CAPS (R87),
CAPTURE (R88), SELECT (R89), COMMIT and RENEGOTIATE (R90). One step is one micro-step; `MSTEP` numbers the
micro-steps of a state from 0 in the order its rule lists them (R19, log 11).
-/

namespace Sys2Proof.Machine

/-- R81: the presence read. A bus failure here is `NotPresent`, not `BusError` (C5); on an ID mismatch `RES0`
holds the ID read. -/
def presenceStep (k : State → State) (s : State) : Out :=
  busReadOr s.profile.regDeviceId 1 (fun t => .next (raise .notPresent t))
    (fun bytes t =>
      let t' := { t with res0 := (byte0 bytes).setWidth 32 }
      if byte0 bytes ∈ t.profile.idSet then .next (k t') else .next (raise .notPresent t')) s

/-- R82: `PRESENCE`. -/
def execPresence (s : State) : Out :=
  underCommand 0x6#4 (fun s => .next (issue 0x6#4 .presence s))
    (fun s => match s.seq with
      | .presence => presenceStep endOk s
      | _ => .fault .noSuchMicroStep) s

/-- R84: micro-steps P0, P1. -/
def waitAttachStep (s : State) : Out :=
  match s.mstep.toNat with
  | 0 => .next (advance (pollStart (some s.profile.attachBudgetMs) s))
  | 1 =>
    pollRead s.profile.regPortStatus (fun b => b &&& s.profile.attachMask != 0#8)
      (some s.profile.attachBudgetMs) .notAttached
      (fun t => if t.onInterrupt then goto .waitCaps t else goto .sinkReadyWait t) s
  | _ => .fault .noSuchMicroStep

/-- R85: micro-steps P0, P1. -/
def sinkReadyStep (s : State) : Out :=
  match s.mstep.toNat with
  | 0 => .next (advance (pollStart (some sinkReadyBudgetMs) s))
  | 1 =>
    pollRead s.profile.regPeFsm (fun b => b == s.profile.peSnkReady)
      (some sinkReadyBudgetMs) .timeout (goto .sendSoftReset) s
  | _ => .fault .noSuchMicroStep

/-- R80: `SendSoftReset`, micro-steps S0 and S1; `k` is what follows S1. -/
def softResetStep (k : State → State) (s : State) : Out :=
  match s.mstep.toNat with
  | 0 => busWrite s.profile.regTxHeader [s.profile.softResetHdr] (fun t => .next (advance t)) s
  | 1 => busWrite s.profile.regPdCmd [s.profile.pdCmdSend] (fun t => .next (k t)) s
  | _ => .fault .noSuchMicroStep

/-- R87: micro-steps W0 = 0, W1 = 1, W2 = 2, W3 = 3, WT = 4. -/
def waitCapsStep (s : State) : Out :=
  match s.mstep.toNat with
  | 0 => .next (advance (pollStart (some capsBudgetMs) s))
  | 1 =>
    busRead s.profile.regPrtStatus 1
      (fun bytes t =>
        if byte0 bytes &&& t.profile.msgReceivedMask = 0#8 then .next (gotoStep 4 t)
        else .next (gotoStep 2 t)) s
  | 2 =>
    busRead s.profile.regRxHeader 2
      (fun bytes t =>
        let h := le16 (byte0 bytes) (bytes.getD 1 0#8)
        let t' := { t with rxHdr := some h }
        if hdrIsCaps t.profile h then .next (gotoStep 3 t') else .next (gotoStep 4 t')) s
  | 3 =>
    withOperand s.rxHdr (fun h s =>
      busRead s.profile.regRxByteCnt 1
        (fun bytes t =>
          let n := (hdrCount t.profile h).setWidth 8
          if byte0 bytes ≠ 4#8 * n then .next (raise .payloadSizeMismatch t)
          else .next (goto .capture { t with capCount := some n })) s) s
  | 4 => timeCheck (some capsBudgetMs) .timeout (gotoStep 1) s
  | _ => .fault .noSuchMicroStep

/-- R88: the capture read (log 18). -/
def captureStep (s : State) : Out :=
  withOperand s.capCount (fun n s =>
    busRead s.profile.regRxData (4 * objectCount n)
      (fun bytes t => .next (goto .select { t with mem := Memory.setBytes t.mem capBase bytes })) s) s

/-- R77, R89: the selection, and the word to commit. -/
def selectStep (s : State) : Out :=
  withSelection (fun w _ t =>
    .next (goto .commit { t with selWord := pdoEncode (pdoCurrent w) (pdoVoltage w) })) s

/-- R36, R90: the commit write. -/
def commitStep (s : State) : Out :=
  busWrite s.profile.regSnkPdo3 (bytesOf32 s.selWord) (fun t => .next (goto .renegotiate t)) s

/-- R90: the results of NEGOTIATE and its end. -/
def negotiateEnd (s : State) : State :=
  endOk { s with res0 := s.selWord, res1 := s.selBestP, res2 := s.selBestIdx.setWidth 32 }

/-- R83: the micro-step of NEGOTIATE at the sequencer's position. -/
def negotiateStep (s : State) : Out :=
  match s.seq with
  | .presence => presenceStep (goto .waitAttach) s
  | .waitAttach => waitAttachStep s
  | .sinkReadyWait => sinkReadyStep s
  | .sendSoftReset => softResetStep (goto .waitCaps) s
  | .waitCaps => waitCapsStep s
  | .capture => captureStep s
  | .select => selectStep s
  | .commit => commitStep s
  | .renegotiate => softResetStep negotiateEnd s
  | _ => .fault .noSuchMicroStep

/-- R83: `NEGOTIATE`. -/
def execNegotiate (s : State) : Out :=
  underCommand 0x7#4 (fun s => .next (issue 0x7#4 .presence s)) negotiateStep s

end Sys2Proof.Machine
end

