-- ==== Sys2Proof/Machine/NvmPatch.lean ====
section
/-!
DEFINITION. The NVM field patcher (43_nvm_patch.md): the patch primitives (R96, R97), validation (R98),
`apply_config` (R99 to R109) and NVM_PATCH (R110).
-/

namespace Sys2Proof.Machine

/-- R96: the byte of a patched byte field. -/
def patchByte (b : Byte) (lsb width val : Nat) : Byte :=
  let m := BitVec.ofNat 8 (2 ^ width - 1) <<< lsb
  (b &&& ~~~m) ||| ((BitVec.ofNat 8 val &&& BitVec.ofNat 8 (2 ^ width - 1)) <<< lsb)

/-- R97: the 16-bit window of a patched window field. -/
def patchWindow (x : U16) (lsb width val : Nat) : U16 :=
  let m := BitVec.ofNat 16 (2 ^ width - 1) <<< lsb
  (x &&& ~~~m) ||| ((BitVec.ofNat 16 val &&& BitVec.ofNat 16 (2 ^ width - 1)) <<< lsb)

/-- R96: `patch8`. -/
def patch8 (img : Image) (i lsb width val : Nat) : Image :=
  img.setIfInBounds i (patchByte (img[i]?.getD 0#8) lsb width val)

/-- R97: `patch16`, one 16-bit read-modify-write (R32, R158). -/
def patch16 (img : Image) (i lsb width val : Nat) : Image :=
  let x := patchWindow (le16 (img[i]?.getD 0#8) (img[i + 1]?.getD 0#8)) lsb width val
  (img.setIfInBounds i (x.extractLsb' 0 8)).setIfInBounds (i + 1) (x.extractLsb' 8 8)

/-- R50, R100 to R102: `(mA - 250) / 250`. -/
def encFixedCurrent (c : U16) : Nat := (c.toNat - 250) / 250

/-- R50, R103: `mA / 10`. -/
def encFlex (c : U16) : Nat := c.toNat / 10

/-- R50, R104, R105: `mV / 50`. -/
def encVoltage (v : U16) : Nat := v.toNat / 50

/-- R50, R100 to R109: the value each field is given. -/
def fieldValue (cfg : NvmConfig) : Field → Nat
  | .pdo1Current => encFixedCurrent cfg.pdo1I
  | .pdo2Current => encFixedCurrent cfg.pdo2I
  | .pdo3Current => encFixedCurrent cfg.pdo3I
  | .flexFallbackCurrent => encFlex cfg.flexI
  | .pdo2Voltage => encVoltage cfg.pdo2V
  | .pdo3Voltage => encVoltage cfg.pdo3V
  | .numValidPdos => cfg.numValid.toNat
  | .useSrcCurrent => cfg.useSrc.toNat
  | .onlyAbove5V => cfg.onlyAbove5V.toNat
  | .gpioCfg => cfg.gpioCfg.toNat

/-- R100 to R109: patch one field. -/
def patchField (p : DeviceProfile) (cfg : NvmConfig) (img : Image) (f : Field) : Image :=
  if f.isWindow then patch16 img f.index (p.fieldLsb.lsb f) f.width (fieldValue cfg f)
  else patch8 img f.index (p.fieldLsb.lsb f) f.width (fieldValue cfg f)

/-- R99: `apply_config`, the ten patches in table order. -/
def applyConfig (p : DeviceProfile) (cfg : NvmConfig) (img : Image) : Image :=
  fieldTable.foldl (patchField p cfg) img

/-- R98 (2): a fixed current that `(mA - 250) / 250` encodes in 4 bits. -/
def fixedCurrentFits (c : U16) : Bool := decide (250 ≤ c.toNat) && decide (c.toNat ≤ 4249)

/-- R98: a configuration that is not `InvalidConfig`. -/
def NvmConfig.valid (cfg : NvmConfig) : Bool :=
  cfg.numValid != 0#2 &&
  fixedCurrentFits cfg.pdo1I && fixedCurrentFits cfg.pdo2I && fixedCurrentFits cfg.pdo3I &&
  decide (cfg.flexI.toNat ≤ 10239) &&
  decide (cfg.pdo2V.toNat ≤ 25599) && decide (cfg.pdo3V.toNat ≤ 25599)

/-- R110: every operand of NVM_PATCH (log 15). -/
def patchOperands (s : State) : Option (NvmConfig × Image) :=
  match nvmConfig s, bufferImage s.mem scratchBase with
  | some cfg, some img => some (cfg, img)
  | _, _ => none

/-- R110: `NVM_PATCH`. -/
def execNvmPatch (s : State) : Out :=
  pureCommand 0x9#4
    (fun s => withOperand (patchOperands s)
      (fun ops s =>
        if ops.1.valid then
          .next (endOk { s with
            mem := storeImage s.mem scratchBase (applyConfig s.profile ops.1 ops.2) })
        else .next (raise .invalidConfig s)) s) s

end Sys2Proof.Machine
end

