-- ==== Sys2Proof/Machine/NvmSeq.lean ====
section
/-!
DEFINITION. The NVM erase/program/verify sequencer (44_nvm_sequencer.md): the primitive transactions (R115 to
R119), the read path (R120 to R122) and NVM_READ (R123), the write path (R124, R125) and NVM_FLASH (R126 to
R130). Each primitive is the list of its micro-steps, composed as its rule composes it; `MSTEP` is the index in
the list of the current state (R19, log 11).
-/

namespace Sys2Proof.Machine

/-- One micro-step of an NVM primitive. -/
inductive NvmOp where
  /-- `BusWrite(reg, bytes)`. -/
  | write (reg : Byte) (bytes : List Byte)
  /-- The first transaction of `ReadSector(n)`: `PowerOn`, with `SECT <- n` (log 19). -/
  | openSector (n : BitVec 3) (reg : Byte) (bytes : List Byte)
  /-- The first transaction of `WriteSector(n)`: the eight scratch bytes, with `SECT <- n` (log 19). -/
  | loadSector (n : BitVec 3)
  /-- R118, I2: P0 of the poll. -/
  | ackStart
  /-- R118, I2: P1 of the poll, until the request bit is clear. -/
  | ackPoll
  /-- R121: `BusRead(REG_NVM_RWBUF, 8)` into a buffer at sector `SECT`. -/
  | readSector (base : Nat)
  deriving DecidableEq, Repr

/-- R115: `Unlock`. -/
def unlock (p : DeviceProfile) : NvmOp := .write p.regNvmPassword [p.nvmPassword]

/-- R116: `CtrlReset`. -/
def ctrlReset (p : DeviceProfile) : NvmOp := .write p.regNvmCtrl0 [p.ctrl0ResetValue]

/-- R117: the byte of `PowerOn`. -/
def powerByte (p : DeviceProfile) : Byte := p.ctrl0Pwr ||| p.ctrl0RstN

/-- R117: `PowerOn`. -/
def powerOn (p : DeviceProfile) : NvmOp := .write p.regNvmCtrl0 [powerByte p]

/-- R118, I0: the byte written to CTRL1. -/
def ctrl1Byte (p : DeviceProfile) (op ser : Byte) : Byte :=
  (op &&& p.ctrl1OpcodeMask) ||| (ser &&& p.ctrl1SerMask)

/-- R118, I1: the byte written to CTRL0 to raise the request. -/
def requestByte (p : DeviceProfile) (sect : BitVec 3) : Byte :=
  powerByte p ||| p.ctrl0Req ||| (sect.setWidth 8 &&& p.ctrl0SectMask)

/-- R118: `Issue(op, ser, sect)`. -/
def issueOp (p : DeviceProfile) (op ser : Byte) (sect : BitVec 3) : List NvmOp :=
  [.write p.regNvmCtrl1 [ctrl1Byte p op ser], .write p.regNvmCtrl0 [requestByte p sect], .ackStart, .ackPoll]

/-- R119: `Exit`. -/
def exitOps (p : DeviceProfile) : List NvmOp :=
  [.write p.regNvmCtrl0 [0x00#8], .write p.regNvmCtrl1 [0x00#8], .write p.regNvmPassword [0x00#8]]

/-- R120: `EnterReadMode`. -/
def enterReadMode (p : DeviceProfile) : List NvmOp := [unlock p, ctrlReset p, powerOn p]

/-- The five sectors, ascending (R122, R128). -/
def sectors : List (BitVec 3) := [0#3, 1#3, 2#3, 3#3, 4#3]

/-- R121: `ReadSector(n, dst)`. -/
def readSectorOps (p : DeviceProfile) (base : Nat) (n : BitVec 3) : List NvmOp :=
  .openSector n p.regNvmCtrl0 [powerByte p] :: issueOp p p.opRead 0x00#8 n ++
    [.readSector base, ctrlReset p]

/-- R122: `ReadImage(dst)`. -/
def readImageOps (p : DeviceProfile) (base : Nat) : List NvmOp :=
  enterReadMode p ++ sectors.flatMap (readSectorOps p base) ++ exitOps p

/-- R124: the all-sectors erase mask in its CTRL1 field. -/
def eraseAllSer (p : DeviceProfile) : Byte := p.eraseAllMask <<< p.ctrl1SerShift

/-- R124, R156: `EnterWriteMode`. -/
def enterWriteMode (p : DeviceProfile) : List NvmOp :=
  [unlock p, .write p.regNvmRwbuf [0x00#8], ctrlReset p, powerOn p] ++
    issueOp p p.opWriteSer (eraseAllSer p) 0#3 ++
    issueOp p p.opSoftProgSector 0x00#8 0#3 ++
    issueOp p p.opEraseSector 0x00#8 0#3

/-- R125: `WriteSector(n, NVM_SCRATCH)`. -/
def writeSectorOps (p : DeviceProfile) (n : BitVec 3) : List NvmOp :=
  .loadSector n :: powerOn p :: issueOp p p.opWritePl 0x00#8 0#3 ++ issueOp p p.opProgSector 0x00#8 n

/-- R128: the loop of `NVM_PROGRAM`. -/
def programOps (p : DeviceProfile) : List NvmOp := sectors.flatMap (writeSectorOps p)

/-- R118: the request bit is clear. -/
def ackDone (p : DeviceProfile) (b : Byte) : Bool := b &&& p.ctrl0Req == 0#8

/-- R33, R121: store the eight bytes read at the sector `SECT` of a buffer. -/
def storeSect (base : Nat) (bytes : List Byte) (s : State) : State :=
  { s with mem := Memory.setBytes s.mem (base + 8 * s.sect.toNat) bytes }

/-- Run one micro-step of an NVM primitive; `k` is the sequencer's move after it. -/
def nvmOpStep (op : NvmOp) (k : State → State) (s : State) : Out :=
  match op with
  | .write reg bytes => busWrite reg bytes (fun t => .next (k t)) s
  | .openSector n reg bytes => busWrite reg bytes (fun t => .next (k { t with sect := n })) s
  | .loadSector n =>
    withOperand (Memory.getBytes s.mem (scratchBase + 8 * n.toNat) 8)
      (fun bytes s => busWrite s.profile.regNvmRwbuf bytes (fun t => .next (k { t with sect := n })) s) s
  | .ackStart => .next (k (pollStart s.profile.nvmAckBudgetMs s))
  | .ackPoll =>
    pollRead s.profile.regNvmCtrl0 (ackDone s.profile) s.profile.nvmAckBudgetMs .timeout k s
  | .readSector base =>
    if 4 < s.sect.toNat then .fault .sectorOutOfRange
    else busRead s.profile.regNvmRwbuf 8 (fun bytes t => .next (k (storeSect base bytes t))) s

/-- The micro-step of a state that runs a list of primitives: after the last one, `leave`. -/
def nvmListStep (ops : List NvmOp) (leave : State → State) (s : State) : Out :=
  match ops[s.mstep.toNat]? with
  | none => .fault .noSuchMicroStep
  | some op => nvmOpStep op (if s.mstep.toNat + 1 < ops.length then advance else leave) s

/-- R123: `NVM_READ`. -/
def execNvmRead (s : State) : Out :=
  underCommand 0x8#4 (fun s => .next (issue 0x8#4 .nvmReadImage s))
    (fun s => match s.seq with
      | .nvmReadImage => nvmListStep (readImageOps s.profile imgBase) endOk s
      | _ => .fault .noSuchMicroStep) s

/-- R98: `validate()`. -/
def validate (s : State) : Out :=
  withOperand (nvmConfig s)
    (fun cfg s => if cfg.valid then .next s else .next (raise .invalidConfig s)) s

/-- R56, R126, D33: the issue of NVM_FLASH makes the writes of an issue, and validates before any transaction. A
fault of the validation leaves the issued state with `FAULT` set, in `NVM_READ_IMAGE` (log 13). Its error
ends the issued command (R137, D42: `CUR_CMD` stays as R56 wrote it, log 14). -/
def issueFlash (s : State) : Out := validate (issue 0xA#4 .nvmReadImage s)

/-- R127: copy to scratch and `apply_config`, one internal step. -/
def flashPatchStep (s : State) : Out :=
  withOperand (nvmConfig s) (fun cfg s =>
    withOperand (bufferImage s.mem imgBase) (fun img s =>
      .next (goto .nvmErase { s with
        mem := storeImage s.mem scratchBase (applyConfig s.profile cfg img) })) s) s

/-- R130: the byte compare, one internal step. -/
def compareStep (s : State) : Out :=
  withOperand (bufferImage s.mem verifyBase) (fun v s =>
    withOperand (bufferImage s.mem scratchBase) (fun x s =>
      if v = x then .next (endOk s) else .next (raise .verifyMismatch s)) s) s

/-- R127 to R130: the micro-step of NVM_FLASH at the sequencer's position. -/
def flashStep (s : State) : Out :=
  match s.seq with
  | .nvmReadImage => nvmListStep (readImageOps s.profile imgBase) (goto .nvmPatch) s
  | .nvmPatch => flashPatchStep s
  | .nvmErase => nvmListStep (enterWriteMode s.profile) (goto .nvmProgram) s
  | .nvmProgram => nvmListStep (programOps s.profile) (goto .nvmExit) s
  | .nvmExit => nvmListStep (exitOps s.profile) (goto .nvmVerifyRead) s
  | .nvmVerifyRead => nvmListStep (readImageOps s.profile verifyBase) (goto .nvmCompare) s
  | .nvmCompare => compareStep s
  | _ => .fault .noSuchMicroStep

/-- R126: `NVM_FLASH`. -/
def execNvmFlash (s : State) : Out := underCommand 0xA#4 issueFlash flashStep s

end Sys2Proof.Machine
end

