-- ==== Sys2Proof/Machine/Dispatch.lean ====
section
/-!
DEFINITION. One arm per command of the block (spec/opcode_table.json).
-/

namespace Sys2Proof.Machine

def exec (i : Instr) (s : State) : Host.Outcome State Fault Refusal :=
  match i with
  | .pdoDecode => Sys2Proof.Machine.execPdoDecode s
  | .pdoEncode => Sys2Proof.Machine.execPdoEncode s
  | .pdoPower => Sys2Proof.Machine.execPdoPower s
  | .hdrClassify => Sys2Proof.Machine.execHdrClassify s
  | .pdoSelect => Sys2Proof.Machine.execPdoSelect s
  | .presence => Sys2Proof.Machine.execPresence s
  | .negotiate => Sys2Proof.Machine.execNegotiate s
  | .nvmRead => Sys2Proof.Machine.execNvmRead s
  | .nvmPatch => Sys2Proof.Machine.execNvmPatch s
  | .nvmFlash => Sys2Proof.Machine.execNvmFlash s
  | .illegalOpc word => Sys2Proof.Machine.execIllegalOpc word s

end Sys2Proof.Machine
end

