-- ==== Sys2Proof/Machine/HostPort.lean ====
section
/-!
DEFINITION. The host port (R15 to R17, R24, R25, R38): the register map, what a host read returns, and what a
host write of any register but `CMD` does. The host write of `CMD` is in Machine/Sequencing.lean.
-/

namespace Sys2Proof.Machine

/-- R15: the byte of a buffer at a host index. -/
def bufferByte (s : State) (idx : Nat) (draw : U32) : U32 :=
  ((Memory.get s.mem idx).getD (draw.extractLsb' 0 8)).setWidth 32

/-- A 16-bit register as the host reads it. -/
def read16 (r : Option U16) (draw : U32) : U32 := (r.getD (low16 draw)).setWidth 32

/-- R15: what a host read returns. An unwritten register or field gives the bits of `draw` (R24, log 4); a
reserved index and `CMD` give 0. -/
def hostValue (s : State) (idx : Byte) (draw : U32) : U32 :=
  match idx.toNat with
  | 0x00 => 0#32
  | 0x01 => (statusByte s).setWidth 32
  | 0x02 => (stateByte s).setWidth 32
  | 0x03 => (ctrlByte s).setWidth 32
  | 0x04 => s.arg0.getD draw
  | 0x05 => s.arg1.getD draw
  | 0x06 => s.res0
  | 0x07 => s.res1
  | 0x08 => s.res2
  | 0x09 => read16 s.negMinI draw
  | 0x0A => read16 s.negMinV draw
  | 0x0B => read16 s.negMaxV draw
  | 0x0C => read16 s.nvcPdo1I draw
  | 0x0D => read16 s.nvcPdo2V draw
  | 0x0E => read16 s.nvcPdo2I draw
  | 0x0F => read16 s.nvcPdo3V draw
  | 0x10 => read16 s.nvcPdo3I draw
  | 0x11 => read16 s.nvcFlexI draw
  | 0x12 => (flagsByte s draw).setWidth 32
  | 0x13 => (s.capCount.getD (draw.extractLsb' 0 8)).setWidth 32
  | 0x14 => read16 s.rxHdr draw
  | n => if 0x20 ≤ n ∧ n < 0xC0 then bufferByte s n draw else 0#32

/-- R25, R38: a host read returns the current value and has no effect on the block. -/
def hostRead (idx : Byte) (s : State) : State :=
  { s with
    hostRdata := some (hostValue s idx (Config.unwrittenRead s.draws))
    draws := s.draws + 1 }

/-- R15: the buffer bytes the host may write: `CAP_BUF` and `NVM_SCRATCH`. -/
def hostWritable (idx : Nat) : Bool :=
  (decide (0x20 ≤ idx) && decide (idx < 0x48)) || (decide (0x70 ≤ idx) && decide (idx < 0x98))

/-- R15, R17: a host write of a register other than `CMD`; the value is cut to the register's width, reserved
bits are dropped, and a write to a reserved index (R15) or a read-only register (log 16) is ignored. -/
def writeRegister (idx : Byte) (v : U32) (s : State) : State :=
  match idx.toNat with
  | 0x03 => { s with clkPresent := v.getLsbD 0, onInterrupt := v.getLsbD 1 }
  | 0x04 => { s with arg0 := some v }
  | 0x05 => { s with arg1 := some v }
  | 0x09 => { s with negMinI := some (low16 v) }
  | 0x0A => { s with negMinV := some (low16 v) }
  | 0x0B => { s with negMaxV := some (low16 v) }
  | 0x0C => { s with nvcPdo1I := some (low16 v) }
  | 0x0D => { s with nvcPdo2V := some (low16 v) }
  | 0x0E => { s with nvcPdo2I := some (low16 v) }
  | 0x0F => { s with nvcPdo3V := some (low16 v) }
  | 0x10 => { s with nvcPdo3I := some (low16 v) }
  | 0x11 => { s with nvcFlexI := some (low16 v) }
  | 0x12 => { s with
      numValid := some (v.extractLsb' 0 2)
      useSrc := some (v.getLsbD 2)
      onlyAbove5V := some (v.getLsbD 3)
      gpioCfg := some (v.extractLsb' 4 2) }
  | 0x13 => { s with capCount := some (v.extractLsb' 0 8) }
  | n => if hostWritable n then { s with mem := Memory.set s.mem n (v.extractLsb' 0 8) } else s

end Sys2Proof.Machine
end

