-- ==== Sys2Proof/Machine/Sequencing.lean ====
section
/-!
DEFINITION. How the block's steps, the host's accesses and reset interleave (R13, R25, R56, R140, R152; log 6),
and where the next command comes from: the byte the host writes to `CMD` (R53, R56), or `CUR_CMD` while a
command is in progress (R19, R22).
-/

namespace Sys2Proof.Machine

/-- R53: the byte of a host write of `CMD`. -/
def commandByte (v : U32) : Byte := v.extractLsb' 0 8

/-- R53, R56: a host write of `CMD` at a block that is not busy: the byte is decoded and its command runs. -/
def commandWrite (v : U32) (s : State) : Out :=
  match decode [commandByte v] with
  | .ok (i, _) => exec i s
  | .error _ => .next s

/-- R15, R25, R56: a host write. At a busy block it changes no register and sets `STATUS.FAULT`, whatever the
index. -/
def hostWrite (idx : Byte) (v : U32) (s : State) : Out :=
  if s.busy then .next (setFault s)
  else if idx = 0x00#8 then commandWrite v s
  else .next (writeRegister idx v s)

/-- R57, R58, R137, R140: the block's own step. A block that is faulted or not busy takes none (log 12); else
the command in `CUR_CMD` takes its next micro-step. -/
def blockStep (s : State) : Out :=
  if s.fault then .next s
  else if s.busy = false then .next s
  else
    match decodeOpc s.curCmd with
    | some i => exec i s
    | none => .fault .noSuchMicroStep

/-- What the next entry of the input queue does (log 6). -/
def takeInput (i : Input) (s : State) : Out :=
  match i with
  | .run => blockStep s
  | .hostWrite idx v => hostWrite idx v s
  | .hostRead idx => .next (hostRead idx s)
  | .reset => .next (resetBlock s)

/-- R94, R140: nothing runs under an illegal profile. Otherwise the next input lands, or, when the outside
world does nothing, the block steps. -/
def systemStep (s : State) : Out :=
  if s.profile.legal = false then .refused .illegalProfile
  else
    match s.inputs with
    | [] => blockStep s
    | i :: rest => takeInput i { s with inputs := rest }

/-- The value the host writes to `CMD` for a table word. -/
def tableWordValue (nbits w : Nat) : U32 := BitVec.ofNat 32 ((w % 2 ^ nbits) % 256)

end Sys2Proof.Machine
end

