-- ==== Sys2Proof/Machine/Step.lean ====
section
/-!
DEFINITION. The one step function of the system, and where the next command is placed (log 22).
-/

namespace Sys2Proof.Machine

/-- One step: the next input of the queue, or the block's next micro-step. -/
def step (s : State) : Host.Outcome State Fault Refusal := systemStep s

/-- The block fetches nothing (R19, R41): a command arrives as the host's write of `CMD`. So the word is placed
as the host's next access, a write of `CMD` (R56, log 22). -/
def State.withFetchWord (s : State) (nbits w : Nat) : State :=
  { s with inputs := .hostWrite 0x00#8 (tableWordValue nbits w) :: s.inputs }

end Sys2Proof.Machine
end

