-- ==== Sys2Proof/Safety.lean ====
section
/-!
DEFINITION. What the statements about the block are made of: when a command may be issued or take its next
micro-step, several steps of a command, the legal positions of the sequencer (R18, R19) and the invariant of the
machine, and the transactions the NVM rules list (R115 to R130), written down from those rules as requests.
-/

namespace Sys2Proof.Machine

/-- R53: the opcode of a command of the opcode map; `none` for the illegal space. -/
def opcodeOf : Instr → Option (BitVec 4)
  | .pdoDecode => some 1#4
  | .pdoEncode => some 2#4
  | .pdoPower => some 3#4
  | .hdrClassify => some 4#4
  | .pdoSelect => some 5#4
  | .presence => some 6#4
  | .negotiate => some 7#4
  | .nvmRead => some 8#4
  | .nvmPatch => some 9#4
  | .nvmFlash => some 10#4
  | .illegalOpc _ => none

/-- The block accepts a command (R56): it is not busy and not faulted, under a legal profile (R94). -/
def Issuable (s : State) : Prop := s.profile.legal = true ∧ s.fault = false ∧ s.busy = false

/-- The command with opcode `opc` is in progress at the state `st` of the sequencer (R18, R22), in a block that
is not faulted, under a legal profile. -/
def InProgress (opc : BitVec 4) (st : SeqState) (s : State) : Prop :=
  s.profile.legal = true ∧ s.fault = false ∧ s.busy = true ∧ s.curCmd = opc ∧ s.seq = st

/-- `k` steps of one command, stopping at the first fault or refusal. -/
def execN (i : Instr) : Nat → State → Out
  | 0, s => .next s
  | k + 1, s =>
    match exec i s with
    | .next t => execN i k t
    | .fault r => .fault r
    | .refused r => .refused r

/-- R19: how many micro-steps the rule of a sequencer state lists; 0 where the block takes no step. -/
def microSteps : SeqState → Nat
  | .idle => 0
  | .done => 0
  | .failed => 0
  | .exec => 1
  | .presence => 1
  | .waitAttach => 2
  | .sinkReadyWait => 2
  | .sendSoftReset => 2
  | .waitCaps => 5
  | .capture => 1
  | .select => 1
  | .commit => 1
  | .renegotiate => 2
  | .nvmReadImage => 41
  | .nvmPatch => 1
  | .nvmErase => 16
  | .nvmProgram => 50
  | .nvmExit => 3
  | .nvmVerifyRead => 41
  | .nvmCompare => 1

/-- R56, R83, R123, R126: the commands that enter a sequencer state. -/
def commandsIn : SeqState → List (BitVec 4)
  | .idle => []
  | .done => []
  | .failed => []
  | .exec => [1#4, 2#4, 3#4, 4#4, 5#4, 9#4]
  | .presence => [6#4, 7#4]
  | .waitAttach => [7#4]
  | .sinkReadyWait => [7#4]
  | .sendSoftReset => [7#4]
  | .waitCaps => [7#4]
  | .capture => [7#4]
  | .select => [7#4]
  | .commit => [7#4]
  | .renegotiate => [7#4]
  | .nvmReadImage => [8#4, 10#4]
  | .nvmPatch => [10#4]
  | .nvmErase => [10#4]
  | .nvmProgram => [10#4]
  | .nvmExit => [10#4]
  | .nvmVerifyRead => [10#4]
  | .nvmCompare => [10#4]

/-- R18, R19, R22: the position (`CUR_CMD`, `STATE`, `MSTEP`) of a busy block, and the states of one that is not
busy. -/
def Positioned (s : State) : Prop :=
  if s.busy = true then s.curCmd ∈ commandsIn s.seq ∧ s.mstep.toNat < microSteps s.seq
  else s.seq = .idle ∨ s.seq = .done ∨ s.seq = .failed

/-- The invariant of the machine. -/
structure Invariant (s : State) : Prop where
  /-- The buffer memory keeps its canonical form (log 21). -/
  mem : Memory.wf s.mem = true
  /-- R16: `OK` equals `ERR = 0` and `STATE = DONE`. -/
  okBit : s.ok = true ↔ s.err = 0#4 ∧ s.seq = .done
  /-- R135: codes 5 and 11 to 15 are never written. -/
  errCode : s.err.toNat ≤ 10 ∧ s.err ≠ 5#4
  /-- R56, R57, R137: `ERR` is 0 while a command is in progress. -/
  busyErr : s.busy = true → s.err = 0#4
  position : Positioned s
  /-- R140: `BUSY` keeps its value at a fault, so a faulted block is at the position of a command: neither in `DONE`
  nor in `FAILED` (log 13 for the issue of NVM_FLASH). -/
  faultBusy : s.fault = true → s.busy = true
  /-- R122, R128: `SECT` is a sector. -/
  sect : s.sect.toNat ≤ 4
  /-- R87, R88: a capture has 1 to 7 objects. -/
  capture : s.busy = true → s.seq = .capture →
    ∃ n : Byte, s.capCount = some n ∧ 1 ≤ n.toNat ∧ n.toNat ≤ 7
  /-- R87: the byte-count check follows a capabilities header. -/
  header : s.busy = true → s.seq = .waitCaps → s.mstep = 3#8 →
    ∃ h : U16, s.rxHdr = some h ∧ hdrIsCaps s.profile h = true

/-- R27: the lengths of the transactions the block issues. -/
def legalLength : BusReq → Bool
  | .read _ n => n == 1 || n == 2 || n == 8 || (n % 4 == 0 && decide (4 ≤ n) && decide (n ≤ 28))
  | .write _ bytes => bytes.length == 1 || bytes.length == 4 || bytes.length == 8

/-- The profile, `CTRL` and every register the host writes as an operand (R15, R154). -/
def SameOperands (s t : State) : Prop :=
  t.profile = s.profile ∧ t.clkPresent = s.clkPresent ∧ t.onInterrupt = s.onInterrupt ∧
  t.arg0 = s.arg0 ∧ t.arg1 = s.arg1 ∧
  t.negMinI = s.negMinI ∧ t.negMinV = s.negMinV ∧ t.negMaxV = s.negMaxV ∧
  t.nvcPdo1I = s.nvcPdo1I ∧ t.nvcPdo2V = s.nvcPdo2V ∧ t.nvcPdo2I = s.nvcPdo2I ∧
  t.nvcPdo3V = s.nvcPdo3V ∧ t.nvcPdo3I = s.nvcPdo3I ∧ t.nvcFlexI = s.nvcFlexI ∧
  t.numValid = s.numValid ∧ t.useSrc = s.useSrc ∧ t.onlyAbove5V = s.onlyAbove5V ∧
  t.gpioCfg = s.gpioCfg

/-- The registers a command may write as results or on its way (R15, R22), but for the status fields, the
sequencer's position, `T_START`, `SECT` and the buffers. -/
def SameResults (s t : State) : Prop :=
  t.res0 = s.res0 ∧ t.res1 = s.res1 ∧ t.res2 = s.res2 ∧ t.capCount = s.capCount ∧ t.rxHdr = s.rxHdr ∧
  t.selFound = s.selFound ∧ t.selBestP = s.selBestP ∧ t.selBestIdx = s.selBestIdx ∧
  t.selI = s.selI ∧ t.selWord = s.selWord

/-! ## Ends, faults and moves, written down from R57, R137, R140 and R19 -/

/-- R57: the state after a successful end. -/
def finished (s : State) : State :=
  { s with seq := .done, err := 0#4, ok := true, busy := false, mstep := 0#8 }

/-- R137: the state after `raise` of the error with this code. -/
def failedWith (code : BitVec 4) (s : State) : State :=
  { s with seq := .failed, err := code, ok := false, busy := false, mstep := 0#8 }

/-- R140: the state after a fault. -/
def faulted (s : State) : State := { s with fault := true }

/-- R19: the state at micro-step `k` of a sequencer state. -/
def movedTo (st : SeqState) (k : Nat) (s : State) : State :=
  { s with seq := st, mstep := BitVec.ofNat 8 k }

/-- R56: the sequencer state a command is issued into. -/
def entryState : Instr → SeqState
  | .pdoDecode => .exec
  | .pdoEncode => .exec
  | .pdoPower => .exec
  | .hdrClassify => .exec
  | .pdoSelect => .exec
  | .nvmPatch => .exec
  | .presence => .presence
  | .negotiate => .presence
  | .nvmRead => .nvmReadImage
  | .nvmFlash => .nvmReadImage
  | .illegalOpc _ => .failed

/-- R56: the state after the issue of a command of the opcode map. -/
def issued (opc : BitVec 4) (st : SeqState) (s : State) : State :=
  { s with err := 0#4, ok := false, busy := true, mstep := 0#8, curCmd := opc, seq := st }

/-- R18: the codes of `STATE`. -/
def stateCode : SeqState → Nat
  | .idle => 0
  | .presence => 1
  | .waitAttach => 2
  | .sinkReadyWait => 3
  | .sendSoftReset => 4
  | .waitCaps => 5
  | .capture => 6
  | .select => 7
  | .commit => 8
  | .renegotiate => 9
  | .done => 10
  | .failed => 11
  | .nvmReadImage => 12
  | .nvmPatch => 13
  | .nvmErase => 14
  | .nvmProgram => 15
  | .nvmExit => 16
  | .nvmVerifyRead => 17
  | .nvmCompare => 18
  | .exec => 19

/-- R136: the errors each command can end with, by their codes (R135). -/
def errorsOf : Instr → List (BitVec 4)
  | .pdoDecode => []
  | .pdoEncode => []
  | .pdoPower => []
  | .hdrClassify => []
  | .pdoSelect => [7#4]
  | .presence => [2#4]
  | .negotiate => [1#4, 2#4, 3#4, 4#4, 6#4, 7#4]
  | .nvmRead => [1#4, 3#4]
  | .nvmPatch => [9#4]
  | .nvmFlash => [1#4, 3#4, 8#4, 9#4]
  | .illegalOpc _ => [10#4]

/-! ## The host's accesses, and polls -/

/-- The step in which a host write lands. -/
def hostWrites (idx : Byte) (v : U32) (s : State) : Out :=
  step { s with inputs := .hostWrite idx v :: s.inputs }

/-- The step in which a host read lands. -/
def hostReads (idx : Byte) (s : State) : Out := step { s with inputs := .hostRead idx :: s.inputs }

/-- R78 P0: what the first micro-step of a poll leaves, at micro-step `k` next. -/
def PollEntry (budget : Option Nat) (k : Nat) (s : State) (o : Out) : Prop :=
  (s.clkPresent = false ∨ budget = none → o = .next (movedTo s.seq k s)) ∧
  (s.clkPresent = true → budget ≠ none →
    o = .next { movedTo s.seq k (afterNow s) with tStart := clockNow s })

/-- R78 P1: what an iteration of a poll with the read `req` leaves. -/
def PollResult (req : BusReq) (satisfied : Byte → Prop) (budget : Option Nat) (code : BitVec 4)
    (leave : State → State) (s : State) (o : Out) : Prop :=
  (icAnswer s req = .fail → o = .next (failedWith 1#4 (afterBus s req))) ∧
  ∀ b : Byte, icAnswer s req = .ok [b] →
    (satisfied b → o = .next (leave (afterBus s req))) ∧
    (¬ satisfied b → s.clkPresent = false ∨ budget = none → o = .next (afterBus s req)) ∧
    (¬ satisfied b → s.clkPresent = true → ∀ limit : Nat, budget = some limit →
      (limit < (clockNow (afterBus s req) - s.tStart).toNat →
        o = .next (failedWith code (afterNow (afterBus s req)))) ∧
      ((clockNow (afterBus s req) - s.tStart).toNat ≤ limit →
        o = .next (afterNow (afterBus s req))))

/-- R29, R137: what a micro-step that is the write `req` alone leaves. -/
def WriteResult (req : BusReq) (leave : State → State) (s : State) (o : Out) : Prop :=
  (icAnswer s req = .fail → o = .next (failedWith 1#4 (afterBus s req))) ∧
  (icAnswer s req = .ok [] → o = .next (leave (afterBus s req)))

/-- The requests of a history. -/
def requests (history : List BusEvent) : List BusReq := history.map BusEvent.req

/-! ## PDOs in natural numbers (R44, R59, R62, R72 to R74) -/

/-- R44: the current of a PDO word in mA. -/
def mA (w : U32) : Nat := w.toNat % 1024 * 10

/-- R44: the voltage of a PDO word in mV. -/
def mV (w : U32) : Nat := w.toNat / 1024 % 1024 * 50

/-- R44: the type of a PDO word. -/
def typeCode (p : DeviceProfile) (w : U32) : Nat := w.toNat / 2 ^ p.pdoTypeLsb % 4

/-- R62: power in mW. -/
def milliwatts (c v : Nat) : Nat := c * v / 1000

/-- R45: the word of a current and a voltage. -/
def packed (c v : Nat) : U32 := BitVec.ofNat 32 (c / 10 % 1024 + v / 50 % 1024 * 1024)

/-- The registers `NEG_MIN_I`, `NEG_MIN_V`, `NEG_MAX_V` hold this configuration. -/
def HasNegConfig (s : State) (cfg : NegConfig) : Prop :=
  s.negMinI = some cfg.minI ∧ s.negMinV = some cfg.minV ∧ s.negMaxV = some cfg.maxV

/-- R72: the candidate test. -/
def IsCandidate (p : DeviceProfile) (cfg : NegConfig) (w : U32) : Prop :=
  typeCode p w = p.pdoTypeFixed.toNat ∧ cfg.minI.toNat ≤ mA w ∧ cfg.minV.toNat ≤ mV w ∧
    mV w ≤ cfg.maxV.toNat

/-- R71: the capture buffer holds these `n` words, least significant byte at the lowest index. -/
def HoldsWords (m : Memory) (n : Nat) (ws : Nat → U32) : Prop :=
  ∀ i < n, ∀ k < 4, Memory.get m (0x20 + 4 * i + k) = some ((ws i).extractLsb' (8 * k) 8)

/-- R74, R75: word `i` wins: it is a candidate, its power exceeds the baseline and that of every earlier
candidate, and no candidate has more. -/
def Wins (p : DeviceProfile) (cfg : NegConfig) (n : Nat) (ws : Nat → U32) (i : Nat) : Prop :=
  i < n ∧ IsCandidate p cfg (ws i) ∧
  milliwatts cfg.minI.toNat cfg.minV.toNat < milliwatts (mA (ws i)) (mV (ws i)) ∧
  (∀ j < n, IsCandidate p cfg (ws j) →
    milliwatts (mA (ws j)) (mV (ws j)) ≤ milliwatts (mA (ws i)) (mV (ws i))) ∧
  (∀ j < i, IsCandidate p cfg (ws j) →
    milliwatts (mA (ws j)) (mV (ws j)) < milliwatts (mA (ws i)) (mV (ws i)))

/-- R74: no candidate exceeds the baseline. -/
def NoneWins (p : DeviceProfile) (cfg : NegConfig) (n : Nat) (ws : Nat → U32) : Prop :=
  ∀ j < n, IsCandidate p cfg (ws j) →
    milliwatts (mA (ws j)) (mV (ws j)) ≤ milliwatts cfg.minI.toNat cfg.minV.toNat

/-! ## NVM configurations and images (R49, R50, R95, R98) -/

/-- The `NVC_*` registers and fields hold this configuration. -/
def HasNvmConfig (s : State) (c : NvmConfig) : Prop :=
  s.nvcPdo1I = some c.pdo1I ∧ s.nvcPdo2V = some c.pdo2V ∧ s.nvcPdo2I = some c.pdo2I ∧
  s.nvcPdo3V = some c.pdo3V ∧ s.nvcPdo3I = some c.pdo3I ∧ s.nvcFlexI = some c.flexI ∧
  s.numValid = some c.numValid ∧ s.useSrc = some c.useSrc ∧ s.onlyAbove5V = some c.onlyAbove5V ∧
  s.gpioCfg = some c.gpioCfg

/-- An `NVC_*` register or field is unwritten. -/
def LacksNvmConfig (s : State) : Prop :=
  s.nvcPdo1I = none ∨ s.nvcPdo2V = none ∨ s.nvcPdo2I = none ∨ s.nvcPdo3V = none ∨ s.nvcPdo3I = none ∨
  s.nvcFlexI = none ∨ s.numValid = none ∨ s.useSrc = none ∨ s.onlyAbove5V = none ∨ s.gpioCfg = none

/-- R98: none of the conditions (1) to (4) holds. -/
def InRange (c : NvmConfig) : Prop :=
  1 ≤ c.numValid.toNat ∧ c.numValid.toNat ≤ 3 ∧
  250 ≤ c.pdo1I.toNat ∧ c.pdo1I.toNat ≤ 4249 ∧ 250 ≤ c.pdo2I.toNat ∧ c.pdo2I.toNat ≤ 4249 ∧
  250 ≤ c.pdo3I.toNat ∧ c.pdo3I.toNat ≤ 4249 ∧
  c.flexI.toNat ≤ 10239 ∧ c.pdo2V.toNat ≤ 25599 ∧ c.pdo3V.toNat ≤ 25599

/-- A buffer holds this image (R21). -/
def HoldsImage (m : Memory) (base : Nat) (img : Image) : Prop :=
  ∀ j < 40, Memory.get m (base + j) = img[j]?

/-- Bit `b` of image byte `j`. -/
def imageBit (img : Image) (j b : Nat) : Bool := (img[j]?.getD 0#8).getLsbD b

/-- R95: bit `b` of image byte `j` is a bit of one of the ten fields. -/
def InFieldBits (m : FieldMap) (j b : Nat) : Prop :=
  (j = 26 ∧ m.pdo1Current ≤ b ∧ b < m.pdo1Current + 4) ∨
  (j = 28 ∧ m.pdo2Current ≤ b ∧ b < m.pdo2Current + 4) ∨
  (j = 29 ∧ m.pdo3Current ≤ b ∧ b < m.pdo3Current + 4) ∨
  (∃ k, m.flexFallbackCurrent ≤ k ∧ k < m.flexFallbackCurrent + 10 ∧ j = 35 + k / 8 ∧ b = k % 8) ∨
  (∃ k, m.pdo2Voltage ≤ k ∧ k < m.pdo2Voltage + 9 ∧ j = 32 + k / 8 ∧ b = k % 8) ∨
  (∃ k, m.pdo3Voltage ≤ k ∧ k < m.pdo3Voltage + 9 ∧ j = 34 + k / 8 ∧ b = k % 8) ∨
  (j = 26 ∧ m.numValidPdos ≤ b ∧ b < m.numValidPdos + 2) ∨
  (j = 38 ∧ b = m.useSrcCurrent) ∨
  (j = 38 ∧ b = m.onlyAbove5V) ∨
  (j = 8 ∧ 4 ≤ b ∧ b < 6)

/-- R118, I2: the second micro-step of an NVM acknowledge poll, in the lists of R122, R124 and R125 (log 11). -/
def AckPollAt (st : SeqState) (k : Nat) : Prop :=
  (∃ n < 5, k = 7 * n + 7) ∧ (st = .nvmReadImage ∨ st = .nvmVerifyRead) ∨
  (∃ n < 3, k = 4 * n + 7) ∧ st = .nvmErase ∨
  (∃ n < 5, k = 10 * n + 5 ∨ k = 10 * n + 9) ∧ st = .nvmProgram

/-- R127 to R129: what follows micro-step `k` of an NVM state: its next micro-step, or the next state. -/
def nvmNext (st : SeqState) (k : Nat) (s : State) : State :=
  if k + 1 < microSteps st then movedTo st (k + 1) s
  else
    match st with
    | .nvmErase => movedTo .nvmProgram 0 s
    | .nvmProgram => movedTo .nvmExit 0 s
    | .nvmExit => movedTo .nvmVerifyRead 0 s
    | .nvmVerifyRead => movedTo .nvmCompare 0 s
    | _ => if s.curCmd = 8#4 then finished s else movedTo .nvmPatch 0 s

/-! ## The transactions the NVM rules list -/

/-- One transaction of one byte written. -/
def wr (reg b : Byte) : BusReq := .write reg [b]

/-- R118: the three transactions of `Issue(op, ser, sect)` whose poll ends on its first read. -/
def issueRequests (p : DeviceProfile) (op ser sect : Byte) : List BusReq :=
  [wr p.regNvmCtrl1 ((op &&& p.ctrl1OpcodeMask) ||| (ser &&& p.ctrl1SerMask)),
    wr p.regNvmCtrl0 (p.ctrl0Pwr ||| p.ctrl0RstN ||| p.ctrl0Req ||| (sect &&& p.ctrl0SectMask)),
    .read p.regNvmCtrl0 1]

/-- R119: `Exit`. -/
def exitRequests (p : DeviceProfile) : List BusReq :=
  [wr p.regNvmCtrl0 0#8, wr p.regNvmCtrl1 0#8, wr p.regNvmPassword 0#8]

/-- R120: `EnterReadMode`. -/
def enterReadRequests (p : DeviceProfile) : List BusReq :=
  [wr p.regNvmPassword p.nvmPassword, wr p.regNvmCtrl0 p.ctrl0ResetValue,
    wr p.regNvmCtrl0 (p.ctrl0Pwr ||| p.ctrl0RstN)]

/-- R121: `ReadSector(n, dst)`. -/
def readSectorRequests (p : DeviceProfile) (n : Byte) : List BusReq :=
  wr p.regNvmCtrl0 (p.ctrl0Pwr ||| p.ctrl0RstN) :: issueRequests p p.opRead 0#8 n ++
    [.read p.regNvmRwbuf 8, wr p.regNvmCtrl0 p.ctrl0ResetValue]

/-- R122: `ReadImage(dst)`: 36 transactions. -/
def readImageRequests (p : DeviceProfile) : List BusReq :=
  enterReadRequests p ++ readSectorRequests p 0#8 ++ readSectorRequests p 1#8 ++ readSectorRequests p 2#8 ++
    readSectorRequests p 3#8 ++ readSectorRequests p 4#8 ++ exitRequests p

/-- R124: `EnterWriteMode`: 13 transactions. -/
def enterWriteRequests (p : DeviceProfile) : List BusReq :=
  [wr p.regNvmPassword p.nvmPassword, wr p.regNvmRwbuf 0#8, wr p.regNvmCtrl0 p.ctrl0ResetValue,
    wr p.regNvmCtrl0 (p.ctrl0Pwr ||| p.ctrl0RstN)] ++
    issueRequests p p.opWriteSer (p.eraseAllMask <<< p.ctrl1SerShift) 0#8 ++
    issueRequests p p.opSoftProgSector 0#8 0#8 ++ issueRequests p p.opEraseSector 0#8 0#8

/-- The eight bytes of a sector of an image (R33). -/
def sectorOf (img : Image) (n : Nat) : List Byte := (img.toList.drop (8 * n)).take 8

/-- R125: `WriteSector(n, src)`: 8 transactions. -/
def writeSectorRequests (p : DeviceProfile) (img : Image) (n : Nat) : List BusReq :=
  [.write p.regNvmRwbuf (sectorOf img n), wr p.regNvmCtrl0 (p.ctrl0Pwr ||| p.ctrl0RstN)] ++
    issueRequests p p.opWritePl 0#8 0#8 ++ issueRequests p p.opProgSector 0#8 (BitVec.ofNat 8 n)

/-- R132: the 128 transactions of a successful NVM_FLASH whose every poll ends on its first read. -/
def flashRequests (p : DeviceProfile) (patched : Image) : List BusReq :=
  readImageRequests p ++ enterWriteRequests p ++
    writeSectorRequests p patched 0 ++ writeSectorRequests p patched 1 ++ writeSectorRequests p patched 2 ++
    writeSectorRequests p patched 3 ++ writeSectorRequests p patched 4 ++
    exitRequests p ++ readImageRequests p

/-- An IC that acknowledges a write. -/
def acked : IcAnswer := .ok []

/-- The answers to `ReadSector(n)`: an acknowledge byte and the sector's bytes. -/
def readSectorAnswers (ack : Nat → Byte) (img : Image) (n : Nat) : List IcAnswer :=
  [acked, acked, acked, .ok [ack n], .ok (sectorOf img n), acked]

/-- The answers to a `ReadImage` that reads `img`. -/
def readImageAnswers (ack : Nat → Byte) (img : Image) : List IcAnswer :=
  [acked, acked, acked] ++ readSectorAnswers ack img 0 ++ readSectorAnswers ack img 1 ++
    readSectorAnswers ack img 2 ++ readSectorAnswers ack img 3 ++ readSectorAnswers ack img 4 ++
    [acked, acked, acked]

/-- The answers to one `Issue` whose poll ends on its first read. -/
def issueAnswers (ack : Byte) : List IcAnswer := [acked, acked, .ok [ack]]

/-- The answers to `EnterWriteMode`. -/
def enterWriteAnswers (ack : Nat → Byte) : List IcAnswer :=
  [acked, acked, acked, acked] ++ issueAnswers (ack 0) ++ issueAnswers (ack 1) ++ issueAnswers (ack 2)

/-- The answers to `WriteSector(n)`. -/
def writeSectorAnswers (ack : Nat → Byte) (n : Nat) : List IcAnswer :=
  [acked, acked] ++ issueAnswers (ack (2 * n)) ++ issueAnswers (ack (2 * n + 1))

/-- The answers to an NVM_FLASH that reads `img` first and `back` after programming. -/
def flashAnswers (ackRead ackErase ackProg ackBack : Nat → Byte) (img back : Image) : List IcAnswer :=
  readImageAnswers ackRead img ++ enterWriteAnswers ackErase ++
    writeSectorAnswers ackProg 0 ++ writeSectorAnswers ackProg 1 ++ writeSectorAnswers ackProg 2 ++
    writeSectorAnswers ackProg 3 ++ writeSectorAnswers ackProg 4 ++
    [acked, acked, acked] ++ readImageAnswers ackBack back

end Sys2Proof.Machine
end

