-- ==== Sys2Proof/Certificates/Slice0/Obligations.lean ====
section
/-!
DEFINITION. The statements about the block, in the order of the spec's files. Results are written in natural
numbers, and states as the state before with the registers that change: a register, a buffer or a history a
statement does not name is unchanged. `InProgress opc st s` and `Issuable s` are the only conditions on the
machine; "log n" is notes/assumptions/n.md.
-/

open Sys2Proof Sys2Proof.Machine

/-! ## The command word (R51, R53, R54) -/

/-- Decoding what the encoder writes gives the command back, for every well-formed command and whatever bytes
follow. -/
def Obligations.DecodeOfEncode : Prop :=
  ∀ (i : Instr) (rest : List Byte), i.wf = true → decode (encode i ++ rest) = .ok (i, rest)

/-- R51, R54: every byte is the word of exactly one well-formed command, and it is in the illegal space exactly
when it is 0x00 or above 0x0A. -/
def Obligations.EveryByteIsOneCommand : Prop :=
  ∀ (w : Byte) (rest : List Byte), ∃ i : Instr,
    decode (w :: rest) = .ok (i, rest) ∧ i.wf = true ∧
    (∀ j : Instr, j.wf = true → (encode j = [w] ↔ j = i)) ∧
    (opcodeOf i = none ↔ w.toNat = 0 ∨ 11 ≤ w.toNat)

/-- R51, R53: words written out bit by bit, `RSV` then `OPC`. -/
def Obligations.OpcodeMapWords : Prop :=
  decode [0b00000001#8] = .ok (.pdoDecode, []) ∧ decode [0b00000010#8] = .ok (.pdoEncode, []) ∧
  decode [0b00000011#8] = .ok (.pdoPower, []) ∧ decode [0b00000100#8] = .ok (.hdrClassify, []) ∧
  decode [0b00000101#8] = .ok (.pdoSelect, []) ∧ decode [0b00000110#8] = .ok (.presence, []) ∧
  decode [0b00000111#8] = .ok (.negotiate, []) ∧ decode [0b00001000#8] = .ok (.nvmRead, []) ∧
  decode [0b00001001#8] = .ok (.nvmPatch, []) ∧ decode [0b00001010#8] = .ok (.nvmFlash, []) ∧
  decode [0b00000000#8] = .ok (.illegalOpc 0x00#8, []) ∧
  decode [0b00001011#8] = .ok (.illegalOpc 0x0B#8, []) ∧
  decode [0b00010001#8] = .ok (.illegalOpc 0x11#8, [])

/-! ## The step -/

/-- R53, R56: a host write of `CMD` at a block that is not busy runs exactly the command its low byte decodes
to. -/
def Obligations.CmdWriteRunsTheDecodedCommand : Prop :=
  (∀ (s : State) (v : U32) (rest : List Input) (i : Instr),
    s.profile.legal = true → s.busy = false → s.inputs = .hostWrite 0x00#8 v :: rest →
    decode [v.extractLsb' 0 8] = .ok (i, []) → step s = exec i { s with inputs := rest }) ∧
  (∀ (s : State) (w : Nat) (i : Instr),
    s.profile.legal = true → s.busy = false → decodeTableWord 8 w = some i →
    step (s.withFetchWord 8 w) = exec i s)

/-- R19, R22: while a command is in progress, a step in which the outside world does nothing is the next
micro-step of the command in `CUR_CMD`. -/
def Obligations.BusyBlockStepsItsCommand : Prop :=
  ∀ (s : State) (i : Instr),
    s.profile.legal = true → s.fault = false → s.busy = true → opcodeOf i = some s.curCmd →
    (s.inputs = [] → step s = exec i s) ∧
    (∀ rest, s.inputs = .run :: rest → step s = exec i { s with inputs := rest })

/-- R57, R137, R140 with log 12 (the model's choice: a step of a block that takes none changes nothing): a block
that is not busy, or is faulted, stays as it is until the outside world acts. -/
def Obligations.QuiescentBlockWaits : Prop :=
  ∀ s : State, s.profile.legal = true → s.busy = false ∨ s.fault = true →
    (s.inputs = [] → step s = .next s) ∧
    (∀ rest, s.inputs = .run :: rest → step s = .next { s with inputs := rest })

/-- R43, R46, R94 with log 24 (the model's choice: the ranges of R43 and R46 are part of legality): which
profiles are legal, and that neither a step nor a command runs under one that is not. -/
def Obligations.IllegalProfileRunsNothing : Prop :=
  (∀ p : DeviceProfile, p.legal = true ↔
    20 ≤ p.pdoTypeLsb ∧ p.pdoTypeLsb ≤ 30 ∧ (p.msgTypeBits = 4 ∨ p.msgTypeBits = 5) ∧
    p.msgTypeBits ≤ p.hdrCountLsb ∧ p.hdrCountLsb ≤ 13 ∧ p.fieldLsb.legal = true) ∧
  (∀ m : FieldMap, m.legal = true ↔
    (m.pdo1Current + 4 ≤ 8 ∧ m.pdo2Current + 4 ≤ 8 ∧ m.pdo3Current + 4 ≤ 8 ∧ m.numValidPdos + 2 ≤ 8 ∧
      m.useSrcCurrent + 1 ≤ 8 ∧ m.onlyAbove5V + 1 ≤ 8) ∧
    (m.flexFallbackCurrent ≤ 7 ∧ 9 ≤ m.flexFallbackCurrent + 10 ∧ m.flexFallbackCurrent + 10 ≤ 16) ∧
    (m.pdo2Voltage ≤ 7 ∧ 9 ≤ m.pdo2Voltage + 9 ∧ m.pdo2Voltage + 9 ≤ 16) ∧
    (m.pdo3Voltage ≤ 7 ∧ 9 ≤ m.pdo3Voltage + 9 ∧ m.pdo3Voltage + 9 ≤ 16) ∧
    m.gpioCfg = 4 ∧
    (m.pdo1Current + 4 ≤ m.numValidPdos ∨ m.numValidPdos + 2 ≤ m.pdo1Current) ∧
    m.useSrcCurrent ≠ m.onlyAbove5V ∧
    m.pdo3Voltage + 9 ≤ m.flexFallbackCurrent + 8) ∧
  (∀ s : State, s.profile.legal = false →
    step s = .refused .illegalProfile ∧ ∀ i : Instr, exec i s = .refused .illegalProfile)

/-- R16, R140: a faulted block ignores every command, and until the next input is a reset it stays faulted,
issues no transaction, samples no scripted clock value and does not move. -/
def Obligations.FaultedBlockIsFrozen : Prop :=
  (∀ (i : Instr) (s : State), s.profile.legal = true → s.fault = true → exec i s = .next s) ∧
  (∀ s t : State, s.fault = true → (∀ rest, s.inputs ≠ .reset :: rest) → step s = .next t →
    t.fault = true ∧ t.trace = s.trace ∧ t.clkScript = s.clkScript ∧ t.ic = s.ic ∧
    t.icScript = s.icScript ∧ t.seq = s.seq ∧ t.mstep = s.mstep ∧ t.busy = s.busy ∧ t.err = s.err ∧
    t.ok = s.ok ∧ t.curCmd = s.curCmd)

/-- R25: a host write while busy changes no register and sets `FAULT`, whatever the index; a host read while
busy returns the current value and has no effect. -/
def Obligations.HostAccessWhileBusy : Prop :=
  ∀ (s : State) (idx : Byte) (v : U32), s.profile.legal = true → s.busy = true →
    hostWrites idx v s = .next { s with fault := true } ∧
    (∃ draw : U32, hostReads idx s =
      .next { s with hostRdata := some (hostValue s idx draw), draws := s.draws + 1 })

/-- R27, R29: a step issues at most one transaction, which carries `DEV_ADDR`, has one of the lengths 1, 2,
`4 * object_count`, 4 and 8, and, if it does not fail, brings exactly the bytes asked for; nothing of the
history is ever changed. -/
def Obligations.AtMostOneTransactionPerStep : Prop :=
  ∀ s t : State, Invariant s → step s = .next t →
    t.trace = s.trace ∨
    ∃ e : BusEvent, t.trace = s.trace ++ [e] ∧ e.dev = s.profile.devAddr ∧ legalLength e.req = true ∧
      (∀ (reg : Byte) (n : Nat) (bytes : List Byte),
        e.req = .read reg n → e.answer = .ok bytes → bytes.length = n)

/-! ## The host port (R15 to R18, R24) -/

/-- R151 with the model's choices: what reset leaves, under any profile; hidden registers the rule leaves unspecified
are not mentioned. That NVM_IMG and NVM_VERIFY list no byte is the model's form of the draws R151 gives them (logs 3
and 21), and that `State.reset` is the reset under the default profile is log 2. -/
def Obligations.ResetValues : Prop :=
  ∀ p : DeviceProfile,
    (State.resetWith p).profile = p ∧
    (State.resetWith p).err = 0#4 ∧ (State.resetWith p).busy = false ∧ (State.resetWith p).ok = false ∧
    (State.resetWith p).fault = false ∧ (State.resetWith p).seq = .idle ∧
    (State.resetWith p).clkPresent = false ∧ (State.resetWith p).onInterrupt = false ∧
    (State.resetWith p).arg0 = none ∧ (State.resetWith p).arg1 = none ∧
    (State.resetWith p).res0 = 0#32 ∧ (State.resetWith p).res1 = 0#32 ∧ (State.resetWith p).res2 = 0#32 ∧
    (State.resetWith p).negMinI = none ∧ (State.resetWith p).negMinV = none ∧
    (State.resetWith p).negMaxV = none ∧ (State.resetWith p).nvcPdo1I = none ∧
    (State.resetWith p).nvcPdo2V = none ∧ (State.resetWith p).nvcPdo2I = none ∧
    (State.resetWith p).nvcPdo3V = none ∧ (State.resetWith p).nvcPdo3I = none ∧
    (State.resetWith p).nvcFlexI = none ∧ (State.resetWith p).numValid = none ∧
    (State.resetWith p).useSrc = none ∧ (State.resetWith p).onlyAbove5V = none ∧
    (State.resetWith p).gpioCfg = none ∧ (State.resetWith p).capCount = none ∧
    (∀ a : Nat, Memory.get (State.resetWith p).mem a = none) ∧
    (State.resetWith p).mstep = 0#8 ∧ (State.resetWith p).curCmd = 0#4 ∧
    (State.resetWith p).selFound = false ∧ State.reset = State.resetWith defaultProfile

/-- R152, R153 with log 23 (the model's choice: what the outside world holds survives): a reset at any
micro-step, faulted or not, gives every register its reset value, issues no transaction and does not reach the
IC. -/
def Obligations.ResetAbandonsTheCommand : Prop :=
  ∀ (s : State) (rest : List Input), s.profile.legal = true → s.inputs = .reset :: rest →
    step s = .next { State.resetWith s.profile with
      trace := s.trace, inputs := rest, ic := s.ic, icScript := s.icScript, clkScript := s.clkScript,
      draws := s.draws, hostRdata := s.hostRdata }

/-- R15, R17: a host write of each register the host may write, at a block that is not busy. -/
def Obligations.HostWriteStoresRegister : Prop :=
  ∀ (s : State) (v : U32), s.profile.legal = true → s.busy = false →
    hostWrites 0x03#8 v s = .next { s with clkPresent := v.getLsbD 0, onInterrupt := v.getLsbD 1 } ∧
    hostWrites 0x04#8 v s = .next { s with arg0 := some v } ∧
    hostWrites 0x05#8 v s = .next { s with arg1 := some v } ∧
    hostWrites 0x09#8 v s = .next { s with negMinI := some (BitVec.ofNat 16 v.toNat) } ∧
    hostWrites 0x0A#8 v s = .next { s with negMinV := some (BitVec.ofNat 16 v.toNat) } ∧
    hostWrites 0x0B#8 v s = .next { s with negMaxV := some (BitVec.ofNat 16 v.toNat) } ∧
    hostWrites 0x0C#8 v s = .next { s with nvcPdo1I := some (BitVec.ofNat 16 v.toNat) } ∧
    hostWrites 0x0D#8 v s = .next { s with nvcPdo2V := some (BitVec.ofNat 16 v.toNat) } ∧
    hostWrites 0x0E#8 v s = .next { s with nvcPdo2I := some (BitVec.ofNat 16 v.toNat) } ∧
    hostWrites 0x0F#8 v s = .next { s with nvcPdo3V := some (BitVec.ofNat 16 v.toNat) } ∧
    hostWrites 0x10#8 v s = .next { s with nvcPdo3I := some (BitVec.ofNat 16 v.toNat) } ∧
    hostWrites 0x11#8 v s = .next { s with nvcFlexI := some (BitVec.ofNat 16 v.toNat) } ∧
    hostWrites 0x12#8 v s = .next { s with
      numValid := some (BitVec.ofNat 2 v.toNat), useSrc := some (v.getLsbD 2),
      onlyAbove5V := some (v.getLsbD 3), gpioCfg := some (BitVec.ofNat 2 (v.toNat / 16)) } ∧
    hostWrites 0x13#8 v s = .next { s with capCount := some (BitVec.ofNat 8 v.toNat) }

/-- R15, R21, R24: a host write of a byte of `CAP_BUF` (indices 0x20 to 0x47) or `NVM_SCRATCH` (0x70 to 0x97), at
a block that is not busy, stores that byte and no other, and keeps the memory's form (log 21). -/
def Obligations.HostWriteStoresBufferByte : Prop :=
  ∀ (s : State) (idx : Byte) (v : U32), s.profile.legal = true → s.busy = false →
    (0x20 ≤ idx.toNat ∧ idx.toNat ≤ 0x47) ∨ (0x70 ≤ idx.toNat ∧ idx.toNat ≤ 0x97) →
    ∃ m : Memory, hostWrites idx v s = .next { s with mem := m } ∧
      (∀ a : Nat, Memory.get m a =
        if a = idx.toNat then some (BitVec.ofNat 8 v.toNat) else Memory.get s.mem a) ∧
      (Memory.wf s.mem = true → Memory.wf m = true)

/-- R15 for the reserved indices 0x15 to 0x1F and 0xC0 to 0xFF, and log 16 (the model's choice) for the
registers the host may only read: a host write there changes nothing. -/
def Obligations.IgnoredHostWrites : Prop :=
  ∀ (s : State) (idx : Byte) (v : U32), s.profile.legal = true → s.busy = false →
    (0x15 ≤ idx.toNat ∧ idx.toNat ≤ 0x1F) ∨ 0xC0 ≤ idx.toNat ∨
      idx.toNat ∈ [0x01, 0x02, 0x06, 0x07, 0x08, 0x14] ∨ (0x48 ≤ idx.toNat ∧ idx.toNat ≤ 0x6F) ∨
      (0x98 ≤ idx.toNat ∧ idx.toNat ≤ 0xBF) →
    hostWrites idx v s = .next s

/-- R15 to R18, R38: a host read changes no register of the block, and returns the register's value; what it
returns for a register that is unwritten is left open (R24, log 4), but for the reserved bits of `NVC_FLAGS`, which read
0 all the same. -/
def Obligations.HostReadReturnsRegister : Prop :=
  ∀ (s : State) (idx : Byte), s.profile.legal = true →
    ∃ r : U32, hostReads idx s = .next { s with hostRdata := some r, draws := s.draws + 1 } ∧
      (idx.toNat = 0x00 ∨ (0x15 ≤ idx.toNat ∧ idx.toNat ≤ 0x1F) ∨ 0xC0 ≤ idx.toNat → r = 0#32) ∧
      (idx.toNat = 0x01 → r.toNat =
        s.err.toNat + s.busy.toNat * 16 + s.ok.toNat * 32 + s.fault.toNat * 128) ∧
      (idx.toNat = 0x02 → r.toNat = stateCode s.seq) ∧
      (idx.toNat = 0x03 → r.toNat = s.clkPresent.toNat + s.onInterrupt.toNat * 2) ∧
      (∀ x, idx.toNat = 0x04 → s.arg0 = some x → r = x) ∧
      (∀ x, idx.toNat = 0x05 → s.arg1 = some x → r = x) ∧
      (idx.toNat = 0x06 → r = s.res0) ∧ (idx.toNat = 0x07 → r = s.res1) ∧
      (idx.toNat = 0x08 → r = s.res2) ∧
      (∀ x, idx.toNat = 0x09 → s.negMinI = some x → r.toNat = x.toNat) ∧
      (∀ x, idx.toNat = 0x0A → s.negMinV = some x → r.toNat = x.toNat) ∧
      (∀ x, idx.toNat = 0x0B → s.negMaxV = some x → r.toNat = x.toNat) ∧
      (∀ x, idx.toNat = 0x0C → s.nvcPdo1I = some x → r.toNat = x.toNat) ∧
      (∀ x, idx.toNat = 0x0D → s.nvcPdo2V = some x → r.toNat = x.toNat) ∧
      (∀ x, idx.toNat = 0x0E → s.nvcPdo2I = some x → r.toNat = x.toNat) ∧
      (∀ x, idx.toNat = 0x0F → s.nvcPdo3V = some x → r.toNat = x.toNat) ∧
      (∀ x, idx.toNat = 0x10 → s.nvcPdo3I = some x → r.toNat = x.toNat) ∧
      (∀ x, idx.toNat = 0x11 → s.nvcFlexI = some x → r.toNat = x.toNat) ∧
      (∀ (n g : BitVec 2) (u o : Bool), idx.toNat = 0x12 → s.numValid = some n → s.useSrc = some u →
        s.onlyAbove5V = some o → s.gpioCfg = some g →
        r.toNat = n.toNat + u.toNat * 4 + o.toNat * 8 + g.toNat * 16) ∧
      (idx.toNat = 0x12 → r.toNat < 64) ∧
      (∀ x, idx.toNat = 0x13 → s.capCount = some x → r.toNat = x.toNat) ∧
      (∀ x, idx.toNat = 0x14 → s.rxHdr = some x → r.toNat = x.toNat) ∧
      (∀ b : Byte, 0x20 ≤ idx.toNat → idx.toNat < 0xC0 → Memory.get s.mem idx.toNat = some b →
        r.toNat = b.toNat)

/-! ## Command issue and the unwritten operands (R24, R56, R58) -/

/-- R56: a host write of `CMD`: ignored by a faulted block, a duty violation at a busy one (R25), `IllegalCommand`
for a byte outside the opcode map (R138), and else the issue of the command. NVM_FLASH is issued when its
configuration is in range (R98). -/
def Obligations.CommandIssue : Prop :=
  ∀ (s : State) (v : U32) (i : Instr), s.profile.legal = true →
    decode [v.extractLsb' 0 8] = .ok (i, []) →
    (s.fault = true → hostWrites 0x00#8 v s = .next s) ∧
    (s.busy = true → hostWrites 0x00#8 v s = .next (faulted s)) ∧
    (s.fault = false → s.busy = false →
      (opcodeOf i = none → hostWrites 0x00#8 v s = .next (failedWith 10#4 s)) ∧
      (∀ opc, opcodeOf i = some opc →
        (i = .nvmFlash → ∃ c, HasNvmConfig s c ∧ InRange c) →
        hostWrites 0x00#8 v s = .next (issued opc (entryState i) s) ∧
        exec i s = .next (issued opc (entryState i) s)))

/-- R56, R98, R126: NVM_FLASH validates at its issue, after the writes of R56's first line and before any
transaction, whether the host writes `CMD` or `exec` runs it. An unwritten configuration faults the issued command,
which stays busy (R140); one out of range ends it with `InvalidConfig`. Log 13 (the
model's reading): the fault leaves `STATE` in NVM_READ_IMAGE. Log 14 (the model's reading of R137 and D42 beside R139):
the error keeps `CUR_CMD` 0xA. -/
def Obligations.FlashIssueValidates : Prop :=
  ∀ (s : State) (v : U32), Issuable s → v.toNat % 256 = 0x0A →
    (LacksNvmConfig s →
      exec .nvmFlash s = .next (faulted (issued 10#4 .nvmReadImage s)) ∧
      hostWrites 0x00#8 v s = .next (faulted (issued 10#4 .nvmReadImage s))) ∧
    (∀ c, HasNvmConfig s c → ¬ InRange c →
      exec .nvmFlash s = .next (failedWith 9#4 (issued 10#4 .nvmReadImage s)) ∧
      hostWrites 0x00#8 v s = .next (failedWith 9#4 (issued 10#4 .nvmReadImage s)))

/-- R138: an illegal command word, whether the host writes it or `exec` runs its command: the same step ends in
`FAILED`, and nothing but the status and the position changes. -/
def Obligations.IllegalWord : Prop :=
  ∀ (s : State) (w : Byte), Issuable s → 11 ≤ w.toNat % 16 ∨ w.toNat % 16 = 0 ∨ 1 ≤ w.toNat / 16 →
    ∀ t : State, t = { s with seq := .failed, err := 10#4, ok := false, busy := false, mstep := 0#8 } →
      (Instr.illegalOpc w).wf = true ∧ decode [w] = .ok (.illegalOpc w, []) ∧
      exec (.illegalOpc w) s = .next t ∧
      ∀ v : U32, v.toNat % 256 = w.toNat → hostWrites 0x00#8 v s = .next t

/-- R24, R58: a pure command whose step would read an unwritten operand does nothing but set `FAULT`. -/
def Obligations.PureCommandFaultsOnUnwrittenOperand : Prop :=
  ∀ s : State,
    (InProgress 1#4 .exec s → s.arg0 = none → exec .pdoDecode s = .next (faulted s)) ∧
    (InProgress 2#4 .exec s → s.arg0 = none ∨ s.arg1 = none → exec .pdoEncode s = .next (faulted s)) ∧
    (InProgress 3#4 .exec s → s.arg0 = none ∨ s.arg1 = none → exec .pdoPower s = .next (faulted s)) ∧
    (InProgress 4#4 .exec s → s.arg0 = none → exec .hdrClassify s = .next (faulted s)) ∧
    (InProgress 5#4 .exec s →
      (s.capCount = none ∨ s.negMinI = none ∨ s.negMinV = none ∨ s.negMaxV = none ∨
        ∃ c : Byte, s.capCount = some c ∧ ∃ j < 4 * (c.toNat % 8), Memory.get s.mem (0x20 + j) = none) →
      exec .pdoSelect s = .next (faulted s)) ∧
    (InProgress 9#4 .exec s →
      (LacksNvmConfig s ∨ ∃ j < 40, Memory.get s.mem (0x70 + j) = none) →
      exec .nvmPatch s = .next (faulted s))

/-- R25, R56 with log 27 (the model's choice: what a command does while another is in progress): a duty
violation, and no effect of the command. -/
def Obligations.CommandDuringAnotherFaults : Prop :=
  ∀ (s : State) (i : Instr), s.profile.legal = true → s.busy = true → opcodeOf i ≠ some s.curCmd →
    exec i s = .next (faulted s)

/-! ## The PDO codec (R59 to R67) -/

/-- R63: PDO_DECODE. -/
def Obligations.PdoDecodeResult : Prop :=
  decode [0x01#8] = .ok (.pdoDecode, []) ∧
  ∀ (s : State) (w : U32), InProgress 1#4 .exec s → s.arg0 = some w →
    exec .pdoDecode s = .next (finished { s with
      res0 := BitVec.ofNat 32 (mA w)
      res1 := BitVec.ofNat 32 (mV w)
      res2 := BitVec.ofNat 32 (typeCode s.profile w) })

/-- R64: PDO_ENCODE; the upper halves of `ARG0` and `ARG1` are ignored. -/
def Obligations.PdoEncodeResult : Prop :=
  decode [0x02#8] = .ok (.pdoEncode, []) ∧
  ∀ (s : State) (c v : U32), InProgress 2#4 .exec s → s.arg0 = some c → s.arg1 = some v →
    exec .pdoEncode s = .next (finished { s with
      res0 := packed (c.toNat % 65536) (v.toNat % 65536) })

/-- R65: PDO_POWER. -/
def Obligations.PdoPowerResult : Prop :=
  decode [0x03#8] = .ok (.pdoPower, []) ∧
  ∀ (s : State) (c v : U32), InProgress 3#4 .exec s → s.arg0 = some c → s.arg1 = some v →
    exec .pdoPower s = .next (finished { s with
      res0 := BitVec.ofNat 32 (milliwatts (c.toNat % 65536) (v.toNat % 65536)) })

/-- R62: the product of two 16-bit values never overflows 32 bits, and the division truncates. -/
def Obligations.PowerNeverOverflows : Prop :=
  ∀ c v : U16, (powerMw c v).toNat = c.toNat * v.toNat / 1000 ∧ (powerMw c v).toNat ≤ 4294836

/-- R67: decode of encode is the identity on grid values, with type `0b00`; encode of decode keeps the low
twenty bits of any word. -/
def Obligations.CodecRoundTrip : Prop :=
  (∀ (p : DeviceProfile) (c v : U16), p.legal = true → c.toNat % 10 = 0 → c.toNat ≤ 10230 →
    v.toNat % 50 = 0 → v.toNat ≤ 51150 →
    pdoType p (pdoEncode c v) = 0#2 ∧ pdoCurrent (pdoEncode c v) = c ∧ pdoVoltage (pdoEncode c v) = v) ∧
  (∀ w : U32, pdoEncode (pdoCurrent w) (pdoVoltage w) = w &&& 0x000FFFFF#32)

/-! ## Capabilities and selection (R68 to R77) -/

/-- R69: HDR_CLASSIFY, at both widths of the message type. -/
def Obligations.HdrClassifyResult : Prop :=
  decode [0x04#8] = .ok (.hdrClassify, []) ∧
  ∀ (s : State) (w : U32) (n t : Nat), InProgress 4#4 .exec s → s.arg0 = some w →
    n = w.toNat % 65536 / 2 ^ s.profile.hdrCountLsb % 8 →
    t = w.toNat % 65536 % 2 ^ s.profile.msgTypeBits →
    exec .hdrClassify s = .next (finished { s with
      res0 := BitVec.ofNat 32 n
      res1 := BitVec.ofNat 32 t
      res2 := if n ≠ 0 ∧ t = s.profile.srcCapType.toNat then 1#32 else 0#32 })

/-- R72 to R76: PDO_SELECT when a word wins: the word as captured, its power and its index. `SEL_I` is hidden and
left open. -/
def Obligations.SelectSucceeds : Prop :=
  decode [0x05#8] = .ok (.pdoSelect, []) ∧
  ∀ (s : State) (c : Byte) (cfg : NegConfig) (ws : Nat → U32) (i : Nat), InProgress 5#4 .exec s →
    s.capCount = some c → HasNegConfig s cfg → HoldsWords s.mem (c.toNat % 8) ws →
    Wins s.profile cfg (c.toNat % 8) ws i →
    ∃ k : BitVec 3, exec .pdoSelect s = .next (finished { s with
      res0 := ws i
      res1 := BitVec.ofNat 32 (milliwatts (mA (ws i)) (mV (ws i)))
      res2 := BitVec.ofNat 32 i
      selFound := true
      selBestP := BitVec.ofNat 32 (milliwatts (mA (ws i)) (mV (ws i)))
      selBestIdx := BitVec.ofNat 3 i
      selI := k })

/-- R74, R76, R137: PDO_SELECT when no word wins, an empty capture and an empty voltage range included: `SEL_FOUND` is 0
and `SEL_BEST_P` the baseline, as R74 writes them before the raise (log 14, the model's reading of R137 and D42 beside
R139). Whatever the capture, a word wins or none does, and never both. `SEL_I` is hidden and left open. -/
def Obligations.SelectFails : Prop :=
  (∀ (s : State) (c : Byte) (cfg : NegConfig) (ws : Nat → U32), InProgress 5#4 .exec s →
    s.capCount = some c → HasNegConfig s cfg → HoldsWords s.mem (c.toNat % 8) ws →
    NoneWins s.profile cfg (c.toNat % 8) ws →
    ∃ k : BitVec 3, exec .pdoSelect s = .next (failedWith 7#4 { s with
      selFound := false
      selBestP := BitVec.ofNat 32 (milliwatts cfg.minI.toNat cfg.minV.toNat)
      selI := k })) ∧
  (∀ (p : DeviceProfile) (cfg : NegConfig) (n : Nat) (ws : Nat → U32),
    (NoneWins p cfg n ws ∨ ∃ i, Wins p cfg n ws i) ∧
    ¬ (NoneWins p cfg n ws ∧ ∃ i, Wins p cfg n ws i)) ∧
  (∀ (p : DeviceProfile) (cfg : NegConfig) (n : Nat) (ws : Nat → U32),
    n = 0 ∨ cfg.maxV.toNat < cfg.minV.toNat → NoneWins p cfg n ws)

/-! ## The negotiation sequencer (R78 to R93) -/

/-- R81, R82: the presence read, for PRESENCE and for NEGOTIATE. A bus failure is `NotPresent`. -/
def Obligations.PresenceOutcomes : Prop :=
  decode [0x06#8] = .ok (.presence, []) ∧
  ∀ (s : State) (opc : BitVec 4) (i : Instr) (req : BusReq),
    (opc = 6#4 ∧ i = .presence) ∨ (opc = 7#4 ∧ i = .negotiate) → InProgress opc .presence s →
    req = .read s.profile.regDeviceId 1 →
    (icAnswer s req = .fail → exec i s = .next (failedWith 2#4 (afterBus s req))) ∧
    ∀ b : Byte, icAnswer s req = .ok [b] →
      (b ∉ s.profile.idSet → exec i s =
        .next (failedWith 2#4 { afterBus s req with res0 := BitVec.ofNat 32 b.toNat })) ∧
      (b ∈ s.profile.idSet → i = .presence → exec i s =
        .next (finished { afterBus s req with res0 := BitVec.ofNat 32 b.toNat })) ∧
      (b ∈ s.profile.idSet → i = .negotiate → exec i s =
        .next (movedTo .waitAttach 0 { afterBus s req with res0 := BitVec.ofNat 32 b.toNat }))

/-- R78, R84: WAIT_ATTACH; the expiry error is `NotAttached`, and `ON_INTERRUPT` skips ForceReset. -/
def Obligations.WaitAttach : Prop :=
  ∀ s : State, InProgress 7#4 .waitAttach s →
    (s.mstep = 0#8 → PollEntry (some s.profile.attachBudgetMs) 1 s (exec .negotiate s)) ∧
    (s.mstep = 1#8 →
      PollResult (.read s.profile.regPortStatus 1) (fun b => b &&& s.profile.attachMask ≠ 0#8)
        (some s.profile.attachBudgetMs) 4#4
        (fun t => if s.onInterrupt = true then movedTo .waitCaps 0 t else movedTo .sinkReadyWait 0 t)
        s (exec .negotiate s))

/-- R78, R85: SINK_READY_WAIT with its budget of 500 ms. -/
def Obligations.SinkReadyWait : Prop :=
  ∀ s : State, InProgress 7#4 .sinkReadyWait s →
    (s.mstep = 0#8 → PollEntry (some 500) 1 s (exec .negotiate s)) ∧
    (s.mstep = 1#8 →
      PollResult (.read s.profile.regPeFsm 1) (fun b => b = s.profile.peSnkReady) (some 500) 3#4
        (movedTo .sendSoftReset 0) s (exec .negotiate s))

/-- R80, R86: SEND_SOFT_RESET is two writes, in this order. -/
def Obligations.SendSoftReset : Prop :=
  ∀ s : State, InProgress 7#4 .sendSoftReset s →
    (s.mstep = 0#8 →
      WriteResult (.write s.profile.regTxHeader [s.profile.softResetHdr]) (movedTo .sendSoftReset 1) s
        (exec .negotiate s)) ∧
    (s.mstep = 1#8 →
      WriteResult (.write s.profile.regPdCmd [s.profile.pdCmdSend]) (movedTo .waitCaps 0) s
        (exec .negotiate s))

/-- R70, R87: WAIT_CAPS, micro-steps W0 to W3 and WT as 0 to 4. A header that is not a capabilities header goes on
to the time check and is no error; the byte-count check is fatal. -/
def Obligations.WaitCaps : Prop :=
  ∀ s : State, InProgress 7#4 .waitCaps s →
    (s.mstep = 0#8 → PollEntry (some 500) 1 s (exec .negotiate s)) ∧
    (s.mstep = 1#8 → ∀ req, req = .read s.profile.regPrtStatus 1 →
      (icAnswer s req = .fail → exec .negotiate s = .next (failedWith 1#4 (afterBus s req))) ∧
      ∀ b : Byte, icAnswer s req = .ok [b] →
        (b &&& s.profile.msgReceivedMask = 0#8 →
          exec .negotiate s = .next (movedTo .waitCaps 4 (afterBus s req))) ∧
        (b &&& s.profile.msgReceivedMask ≠ 0#8 →
          exec .negotiate s = .next (movedTo .waitCaps 2 (afterBus s req)))) ∧
    (s.mstep = 2#8 → ∀ req, req = .read s.profile.regRxHeader 2 →
      (icAnswer s req = .fail → exec .negotiate s = .next (failedWith 1#4 (afterBus s req))) ∧
      ∀ b0 b1 : Byte, icAnswer s req = .ok [b0, b1] →
        ∀ h : U16, h = BitVec.ofNat 16 (b0.toNat + 256 * b1.toNat) →
          (h.toNat / 2 ^ s.profile.hdrCountLsb % 8 ≠ 0 ∧
              h.toNat % 2 ^ s.profile.msgTypeBits = s.profile.srcCapType.toNat →
            exec .negotiate s = .next (movedTo .waitCaps 3 { afterBus s req with rxHdr := some h })) ∧
          (¬ (h.toNat / 2 ^ s.profile.hdrCountLsb % 8 ≠ 0 ∧
              h.toNat % 2 ^ s.profile.msgTypeBits = s.profile.srcCapType.toNat) →
            exec .negotiate s = .next (movedTo .waitCaps 4 { afterBus s req with rxHdr := some h }))) ∧
    (s.mstep = 3#8 → ∀ (h : U16) (n : Nat) (req : BusReq), s.rxHdr = some h →
      n = h.toNat / 2 ^ s.profile.hdrCountLsb % 8 → req = .read s.profile.regRxByteCnt 1 →
      (icAnswer s req = .fail → exec .negotiate s = .next (failedWith 1#4 (afterBus s req))) ∧
      ∀ b : Byte, icAnswer s req = .ok [b] →
        (b.toNat ≠ 4 * n → exec .negotiate s = .next (failedWith 6#4 (afterBus s req))) ∧
        (b.toNat = 4 * n → exec .negotiate s =
          .next (movedTo .capture 0 { afterBus s req with capCount := some (BitVec.ofNat 8 n) }))) ∧
    (s.mstep = 4#8 →
      (s.clkPresent = false → exec .negotiate s = .next (movedTo .waitCaps 1 s)) ∧
      (s.clkPresent = true →
        (500 < (clockNow s - s.tStart).toNat →
          exec .negotiate s = .next (failedWith 3#4 (afterNow s))) ∧
        ((clockNow s - s.tStart).toNat ≤ 500 →
          exec .negotiate s = .next (movedTo .waitCaps 1 (afterNow s)))))

/-- R35, R88: CAPTURE stores exactly the bytes read at the start of `CAP_BUF` and changes no other byte. The
count is 1 to 7, as WAIT_CAPS leaves it (R70). -/
def Obligations.CaptureStoresTheBytes : Prop :=
  ∀ (s : State) (n : Byte) (req : BusReq), InProgress 7#4 .capture s → s.capCount = some n →
    1 ≤ n.toNat → n.toNat ≤ 7 → req = .read s.profile.regRxData (4 * n.toNat) →
    (icAnswer s req = .fail → exec .negotiate s = .next (failedWith 1#4 (afterBus s req))) ∧
    ∀ bytes : List Byte, icAnswer s req = .ok bytes →
      ∃ m : Memory, exec .negotiate s = .next (movedTo .select 0 { afterBus s req with mem := m }) ∧
        ∀ a : Nat, Memory.get m a =
          if 0x20 ≤ a ∧ a < 0x20 + 4 * n.toNat then bytes[a - 0x20]? else Memory.get s.mem a

/-- R77, R89: SELECT commits the word encoded from the winner's decoded current and voltage, and issues no
transaction. When no word wins the selector's hidden registers keep what R74 writes before the raise (R137; log 14, the
model's reading beside R139). With an unwritten `NEG_*` register it does nothing but set `FAULT` (R24, R83, R140). -/
def Obligations.SelectState : Prop :=
  (∀ s : State, InProgress 7#4 .select s → s.negMinI = none ∨ s.negMinV = none ∨ s.negMaxV = none →
    exec .negotiate s = .next (faulted s)) ∧
  ∀ (s : State) (c : Byte) (cfg : NegConfig) (ws : Nat → U32), InProgress 7#4 .select s →
    s.capCount = some c → HasNegConfig s cfg → HoldsWords s.mem (c.toNat % 8) ws →
    (NoneWins s.profile cfg (c.toNat % 8) ws →
      ∃ k : BitVec 3, exec .negotiate s = .next (failedWith 7#4 { s with
        selFound := false
        selBestP := BitVec.ofNat 32 (milliwatts cfg.minI.toNat cfg.minV.toNat)
        selI := k })) ∧
    (∀ i, Wins s.profile cfg (c.toNat % 8) ws i →
      packed (mA (ws i)) (mV (ws i)) = ws i &&& 0x000FFFFF#32 ∧
      ∃ k : BitVec 3, exec .negotiate s = .next (movedTo .commit 0 { s with
        selFound := true
        selBestP := BitVec.ofNat 32 (milliwatts (mA (ws i)) (mV (ws i)))
        selBestIdx := BitVec.ofNat 3 i
        selI := k
        selWord := packed (mA (ws i)) (mV (ws i)) }))

/-- R36, R90: COMMIT writes the four bytes of `SEL_WORD`, least significant first; RENEGOTIATE sends the soft reset
and ends the command with its results. -/
def Obligations.CommitAndRenegotiate : Prop :=
  ∀ s : State,
    (InProgress 7#4 .commit s →
      WriteResult (.write s.profile.regSnkPdo3
          [BitVec.ofNat 8 s.selWord.toNat, BitVec.ofNat 8 (s.selWord.toNat / 2 ^ 8),
            BitVec.ofNat 8 (s.selWord.toNat / 2 ^ 16), BitVec.ofNat 8 (s.selWord.toNat / 2 ^ 24)])
        (movedTo .renegotiate 0) s (exec .negotiate s)) ∧
    (InProgress 7#4 .renegotiate s → s.mstep = 0#8 →
      WriteResult (.write s.profile.regTxHeader [s.profile.softResetHdr]) (movedTo .renegotiate 1) s
        (exec .negotiate s)) ∧
    (InProgress 7#4 .renegotiate s → s.mstep = 1#8 →
      WriteResult (.write s.profile.regPdCmd [s.profile.pdCmdSend])
        (fun t => finished { t with
          res0 := s.selWord, res1 := s.selBestP, res2 := BitVec.ofNat 32 s.selBestIdx.toNat })
        s (exec .negotiate s))

/-- R91: every write NEGOTIATE issues is one of the three the rule allows, `REG_SNK_PDO3` only in COMMIT, which only
SELECT enters and which no later state returns to. -/
def Obligations.NegotiateWriteSet : Prop :=
  (∀ (s t : State) (dev : BitVec 7) (reg : Byte) (bytes : List Byte) (a : IcAnswer),
    exec .negotiate s = .next t → t.trace = s.trace ++ [⟨dev, .write reg bytes, a⟩] →
    ((s.seq = .sendSoftReset ∨ s.seq = .renegotiate) ∧
      ((s.mstep = 0#8 ∧ reg = s.profile.regTxHeader ∧ bytes = [s.profile.softResetHdr]) ∨
        (s.mstep = 1#8 ∧ reg = s.profile.regPdCmd ∧ bytes = [s.profile.pdCmdSend]))) ∨
    (s.seq = .commit ∧ reg = s.profile.regSnkPdo3 ∧ bytes.length = 4 ∧
      (t.seq = .renegotiate ∨ (t.seq = .failed ∧ a = .fail)))) ∧
  (∀ s t : State, s.fault = false → s.busy = true → s.curCmd = 7#4 → exec .negotiate s = .next t →
    (t.seq = .commit → s.seq = .select) ∧
    (s.seq = .renegotiate → t.seq = .renegotiate ∨ t.seq = .done ∨ t.seq = .failed))

/-- R92, R83: a NEGOTIATE whose every poll ends on its first read and whose first message is capabilities with `n`
objects: the twelve transactions in order with `ON_INTERRUPT = 0`, the nine without ForceReset with
`ON_INTERRUPT = 1`, the results, and what it leaves unchanged. The oracle's answers are the premise; the clock's
are not. Logs 10 and 11 (the model's choices): its 17 and 13 steps rest on the micro-steps of WAIT_CAPS and on the
model's numbering of the micro-steps. -/
def Obligations.NegotiateSuccessTrace : Prop :=
  ∀ (s : State) (id port fsm status h0 h1 count : Byte) (cfg : NegConfig) (ws : Nat → U32) (n i : Nat)
    (data : List Byte) (rest : List IcAnswer),
    Issuable s → s.ic = .oracle → HasNegConfig s cfg →
    id ∈ s.profile.idSet → port &&& s.profile.attachMask ≠ 0#8 → fsm = s.profile.peSnkReady →
    status &&& s.profile.msgReceivedMask ≠ 0#8 →
    n = (h0.toNat + 256 * h1.toNat) / 2 ^ s.profile.hdrCountLsb % 8 → n ≠ 0 →
    (h0.toNat + 256 * h1.toNat) % 2 ^ s.profile.msgTypeBits = s.profile.srcCapType.toNat →
    count.toNat = 4 * n → data.length = 4 * n →
    (∀ j < n, ∀ k < 4, data[4 * j + k]? = some ((ws j).extractLsb' (8 * k) 8)) →
    Wins s.profile cfg n ws i →
    s.icScript =
      [.ok [id], .ok [port]] ++ (if s.onInterrupt = true then [] else [.ok [fsm], acked, acked]) ++
        [.ok [status], .ok [h0, h1], .ok [count], .ok data, acked, acked, acked] ++ rest →
    ∃ t : State, execN .negotiate (if s.onInterrupt = true then 13 else 17) s = .next t ∧
      requests t.trace = requests s.trace ++
        [.read s.profile.regDeviceId 1, .read s.profile.regPortStatus 1] ++
        (if s.onInterrupt = true then [] else
          [.read s.profile.regPeFsm 1, wr s.profile.regTxHeader s.profile.softResetHdr,
            wr s.profile.regPdCmd s.profile.pdCmdSend]) ++
        [.read s.profile.regPrtStatus 1, .read s.profile.regRxHeader 2, .read s.profile.regRxByteCnt 1,
          .read s.profile.regRxData (4 * n),
          .write s.profile.regSnkPdo3
            ((List.range 4).map fun k => (ws i &&& 0x000FFFFF#32).extractLsb' (8 * k) 8),
          wr s.profile.regTxHeader s.profile.softResetHdr, wr s.profile.regPdCmd s.profile.pdCmdSend] ∧
      t.icScript = rest ∧ t.seq = .done ∧ t.err = 0#4 ∧ t.ok = true ∧ t.busy = false ∧ t.fault = false ∧
      t.mstep = 0#8 ∧ t.curCmd = 7#4 ∧ t.res0 = ws i &&& 0x000FFFFF#32 ∧
      t.res1 = BitVec.ofNat 32 (milliwatts (mA (ws i)) (mV (ws i))) ∧ t.res2 = BitVec.ofNat 32 i ∧
      t.capCount = some (BitVec.ofNat 8 n) ∧
      t.rxHdr = some (BitVec.ofNat 16 (h0.toNat + 256 * h1.toNat)) ∧
      (∀ a : Nat, Memory.get t.mem a =
        if 0x20 ≤ a ∧ a < 0x20 + 4 * n then data[a - 0x20]? else Memory.get s.mem a) ∧
      SameOperands s t

/-- R147: without a bound (no clock; for the NVM polls also no budget) a poll whose condition never holds goes on for
any number of steps: the command stays busy at the same micro-step, reading again each time. WAIT_CAPS comes back to its
read every second step. Log 11: where the NVM polls are in the states' micro-steps. -/
def Obligations.PollsHangWithoutBound : Prop :=
  (∀ (k : Nat) (s : State) (bytes : List Byte) (rest : List IcAnswer) (req : BusReq) (opc : BitVec 4)
    (i : Instr) (st : SeqState),
    InProgress opc st s → s.ic = .oracle →
    s.icScript = bytes.map (fun b => .ok [b]) ++ rest → bytes.length = k →
    (opc = 7#4 ∧ i = .negotiate ∧ st = .waitAttach ∧ s.mstep = 1#8 ∧ s.clkPresent = false ∧
      req = .read s.profile.regPortStatus 1 ∧ (∀ b ∈ bytes, b &&& s.profile.attachMask = 0#8)) ∨
    (opc = 7#4 ∧ i = .negotiate ∧ st = .sinkReadyWait ∧ s.mstep = 1#8 ∧ s.clkPresent = false ∧
      req = .read s.profile.regPeFsm 1 ∧ (∀ b ∈ bytes, b ≠ s.profile.peSnkReady)) ∨
    (((opc = 8#4 ∧ i = .nvmRead ∧ st = .nvmReadImage) ∨ (opc = 10#4 ∧ i = .nvmFlash)) ∧
      AckPollAt st s.mstep.toNat ∧ (s.clkPresent = false ∨ s.profile.nvmAckBudgetMs = none) ∧
      req = .read s.profile.regNvmCtrl0 1 ∧ (∀ b ∈ bytes, b &&& s.profile.ctrl0Req ≠ 0#8)) →
    ∃ t : State, execN i k s = .next t ∧
      requests t.trace = requests s.trace ++ List.replicate k req ∧
      t = { s with trace := t.trace, icScript := rest }) ∧
  (∀ (k : Nat) (s : State) (bytes : List Byte) (rest : List IcAnswer),
    InProgress 7#4 .waitCaps s → s.mstep = 1#8 → s.clkPresent = false → s.ic = .oracle →
    s.icScript = bytes.map (fun b => .ok [b]) ++ rest → bytes.length = k →
    (∀ b ∈ bytes, b &&& s.profile.msgReceivedMask = 0#8) →
    ∃ t : State, execN .negotiate (2 * k) s = .next t ∧
      requests t.trace = requests s.trace ++ List.replicate k (.read s.profile.regPrtStatus 1) ∧
      t = { s with trace := t.trace, icScript := rest })

/-! ## The NVM field patcher (R94 to R112) -/

/-- R100 to R109: after `apply_config`, each field's bits are the value its rule gives, under any legal map and
for any configuration in range. -/
def Obligations.PatchWritesFieldValues : Prop :=
  ∀ (p : DeviceProfile) (c : NvmConfig) (img r : Image) (m : FieldMap),
    p.legal = true → InRange c → m = p.fieldLsb → r = applyConfig p c img →
    (∀ k < 4, imageBit r 26 (m.pdo1Current + k) = ((c.pdo1I.toNat - 250) / 250).testBit k) ∧
    (∀ k < 4, imageBit r 28 (m.pdo2Current + k) = ((c.pdo2I.toNat - 250) / 250).testBit k) ∧
    (∀ k < 4, imageBit r 29 (m.pdo3Current + k) = ((c.pdo3I.toNat - 250) / 250).testBit k) ∧
    (∀ k < 10, imageBit r (35 + (m.flexFallbackCurrent + k) / 8) ((m.flexFallbackCurrent + k) % 8) =
      (c.flexI.toNat / 10).testBit k) ∧
    (∀ k < 9, imageBit r (32 + (m.pdo2Voltage + k) / 8) ((m.pdo2Voltage + k) % 8) =
      (c.pdo2V.toNat / 50).testBit k) ∧
    (∀ k < 9, imageBit r (34 + (m.pdo3Voltage + k) / 8) ((m.pdo3Voltage + k) % 8) =
      (c.pdo3V.toNat / 50).testBit k) ∧
    (∀ k < 2, imageBit r 26 (m.numValidPdos + k) = c.numValid.toNat.testBit k) ∧
    imageBit r 38 m.useSrcCurrent = c.useSrc ∧
    imageBit r 38 m.onlyAbove5V = c.onlyAbove5V ∧
    (∀ k < 2, imageBit r 8 (4 + k) = c.gpioCfg.toNat.testBit k)

/-- R111: every image bit outside the ten fields' bits is unchanged, and only the ten listed bytes can change, so
sectors 0 and 2 and the listed bytes of sectors 1, 3 and 4 never do. -/
def Obligations.PatchIsolation : Prop :=
  ∀ (p : DeviceProfile) (c : NvmConfig) (img : Image), p.legal = true →
    (∀ j < 40, ∀ b < 8, ¬ InFieldBits p.fieldLsb j b →
      imageBit (applyConfig p c img) j b = imageBit img j b) ∧
    (∀ j < 40, j ∉ [8, 26, 28, 29, 32, 33, 34, 35, 36, 38] → (applyConfig p c img)[j]? = img[j]?) ∧
    (∀ j : Nat, j < 8 ∨ (9 ≤ j ∧ j < 24) ∨ j ∈ [24, 25, 27, 30, 31, 37, 39] →
      (applyConfig p c img)[j]? = img[j]?)

/-- R112: patching is idempotent, and images that agree outside the field bits patch to the same image. -/
def Obligations.PatchIsIdempotentAndDeterministic : Prop :=
  ∀ (p : DeviceProfile) (c : NvmConfig) (img img' : Image), p.legal = true →
    applyConfig p c (applyConfig p c img) = applyConfig p c img ∧
    ((∀ j < 40, ∀ b < 8, ¬ InFieldBits p.fieldLsb j b → imageBit img j b = imageBit img' j b) →
      applyConfig p c img = applyConfig p c img')

/-- R98, R110: NVM_PATCH patches `NVM_SCRATCH` and no other byte; a configuration out of range is `InvalidConfig` and
leaves `NVM_SCRATCH` unchanged. -/
def Obligations.NvmPatchResult : Prop :=
  decode [0x09#8] = .ok (.nvmPatch, []) ∧
  ∀ (s : State) (c : NvmConfig) (img : Image), InProgress 9#4 .exec s → HasNvmConfig s c →
    HoldsImage s.mem 0x70 img →
    (¬ InRange c → exec .nvmPatch s = .next (failedWith 9#4 s)) ∧
    (InRange c → ∃ m : Memory, exec .nvmPatch s = .next (finished { s with mem := m }) ∧
      ∀ a : Nat, Memory.get m a =
        if 0x70 ≤ a ∧ a < 0x98 then (applyConfig s.profile c img)[a - 0x70]? else Memory.get s.mem a)

/-! ## The NVM sequencer (R115 to R134) -/

/-- R78, R118, R157: at every acknowledge poll of NVM_READ and NVM_FLASH the block only reads `REG_NVM_CTRL0`, and goes
on to its next controller write only when a read shows the request bit clear. Log 11: where the polls are in the
states' micro-steps. -/
def Obligations.RequestPollWaitsForClear : Prop :=
  ∀ (s : State) (opc : BitVec 4) (i : Instr) (st : SeqState),
    (opc = 8#4 ∧ i = .nvmRead ∧ st = .nvmReadImage) ∨ (opc = 10#4 ∧ i = .nvmFlash) →
    InProgress opc st s →
    (AckPollAt st (s.mstep.toNat + 1) →
      PollEntry s.profile.nvmAckBudgetMs (s.mstep.toNat + 1) s (exec i s)) ∧
    (AckPollAt st s.mstep.toNat →
      PollResult (.read s.profile.regNvmCtrl0 1) (fun b => b &&& s.profile.ctrl0Req = 0#8)
        s.profile.nvmAckBudgetMs 3#4 (nvmNext st s.mstep.toNat) s (exec i s))

/-- R33, R36, R121: the data read of `ReadSector(n)` stores its eight bytes at sector `n` of `NVM_IMG`, or of
`NVM_VERIFY` in the verify read, and changes no other byte. Log 19: `SECT` is `n` there. -/
def Obligations.ReadSectorStoresItsSector : Prop :=
  ∀ (s : State) (opc : BitVec 4) (i : Instr) (st : SeqState) (base n : Nat) (req : BusReq),
    (opc = 8#4 ∧ i = .nvmRead ∧ st = .nvmReadImage ∧ base = 0x48) ∨
      (opc = 10#4 ∧ i = .nvmFlash ∧ st = .nvmReadImage ∧ base = 0x48) ∨
      (opc = 10#4 ∧ i = .nvmFlash ∧ st = .nvmVerifyRead ∧ base = 0x98) →
    InProgress opc st s → n < 5 → s.mstep.toNat = 7 * n + 8 → s.sect.toNat = n →
    req = .read s.profile.regNvmRwbuf 8 →
    (icAnswer s req = .fail → exec i s = .next (failedWith 1#4 (afterBus s req))) ∧
    ∀ bytes : List Byte, icAnswer s req = .ok bytes →
      ∃ m : Memory, exec i s = .next (movedTo st (7 * n + 9) { afterBus s req with mem := m }) ∧
        ∀ a : Nat, Memory.get m a =
          if base + 8 * n ≤ a ∧ a < base + 8 * n + 8 then bytes[a - (base + 8 * n)]?
          else Memory.get s.mem a

/-- R120 to R123: an NVM_READ whose every transaction succeeds and whose every poll ends on its first read issues
the 36 transactions of `ReadImage` in order and leaves the image read in `NVM_IMG`, and no other byte or register
but the status, `T_START` and `SECT` changes. Log 11: its 42 steps are the issue and the 41 micro-steps. -/
def Obligations.NvmReadSuccess : Prop :=
  decode [0x08#8] = .ok (.nvmRead, []) ∧
  ∀ (s : State) (img : Image) (ack : Nat → Byte) (rest : List IcAnswer),
    Issuable s → s.ic = .oracle → (∀ k, ack k &&& s.profile.ctrl0Req = 0#8) →
    s.icScript = readImageAnswers ack img ++ rest →
    ∃ t : State, execN .nvmRead 42 s = .next t ∧
      requests t.trace = requests s.trace ++ readImageRequests s.profile ∧
      (readImageRequests s.profile).length = 36 ∧
      t.icScript = rest ∧ t.seq = .done ∧ t.err = 0#4 ∧ t.ok = true ∧ t.busy = false ∧
      t.fault = false ∧ t.mstep = 0#8 ∧ t.curCmd = 8#4 ∧
      (∀ a : Nat, Memory.get t.mem a = if 0x48 ≤ a ∧ a < 0x70 then img[a - 0x48]? else Memory.get s.mem a) ∧
      SameOperands s t ∧ SameResults s t

/-- R119: the three writes of `Exit`, wherever NVM_READ and NVM_FLASH exit; after the last one NVM_READ has ended.
Log 11: where `Exit` begins in the state's micro-steps. -/
def Obligations.ExitSequence : Prop :=
  ∀ (s : State) (opc : BitVec 4) (i : Instr) (st : SeqState) (first : Nat),
    (opc = 8#4 ∧ i = .nvmRead ∧ st = .nvmReadImage ∧ first = 38) ∨
      (opc = 10#4 ∧ i = .nvmFlash ∧ (st = .nvmReadImage ∨ st = .nvmVerifyRead) ∧ first = 38) ∨
      (opc = 10#4 ∧ i = .nvmFlash ∧ st = .nvmExit ∧ first = 0) →
    InProgress opc st s →
    (s.mstep.toNat = first →
      WriteResult (.write s.profile.regNvmCtrl0 [0x00#8]) (movedTo st (first + 1)) s (exec i s)) ∧
    (s.mstep.toNat = first + 1 →
      WriteResult (.write s.profile.regNvmCtrl1 [0x00#8]) (movedTo st (first + 2)) s (exec i s)) ∧
    (s.mstep.toNat = first + 2 →
      WriteResult (.write s.profile.regNvmPassword [0x00#8])
        (fun t => match st with
          | .nvmExit => movedTo .nvmVerifyRead 0 t
          | .nvmVerifyRead => movedTo .nvmCompare 0 t
          | _ => if opc = 8#4 then finished t else movedTo .nvmPatch 0 t)
        s (exec i s))

/-- R127: NVM_PATCH of NVM_FLASH is one internal step: the image is copied to scratch and patched there, and no other
byte changes. -/
def Obligations.FlashPatchState : Prop :=
  ∀ (s : State) (c : NvmConfig) (img : Image), InProgress 10#4 .nvmPatch s → HasNvmConfig s c →
    HoldsImage s.mem 0x48 img →
    ∃ m : Memory, exec .nvmFlash s = .next (movedTo .nvmErase 0 { s with mem := m }) ∧
      ∀ a : Nat, Memory.get m a =
        if 0x70 ≤ a ∧ a < 0x98 then (applyConfig s.profile c img)[a - 0x70]? else Memory.get s.mem a

/-- R124, R156: NVM_ERASE with every poll ending on its first read: the 13 transactions of `EnterWriteMode`, the three
opcodes in this order, and the move to NVM_PROGRAM with no buffer changed. Log 11: its 16 micro-steps. -/
def Obligations.EnterWriteModeOrder : Prop :=
  ∀ (s : State) (ack : Nat → Byte) (rest : List IcAnswer),
    InProgress 10#4 .nvmErase s → s.mstep = 0#8 → s.ic = .oracle →
    (∀ k, ack k &&& s.profile.ctrl0Req = 0#8) → s.icScript = enterWriteAnswers ack ++ rest →
    ∃ t : State, execN .nvmFlash 16 s = .next t ∧
      requests t.trace = requests s.trace ++ enterWriteRequests s.profile ∧
      (enterWriteRequests s.profile).length = 13 ∧
      t.icScript = rest ∧ InProgress 10#4 .nvmProgram t ∧ t.mstep = 0#8 ∧ t.mem = s.mem ∧
      SameOperands s t ∧ SameResults s t

/-- R125, R128: `WriteSector(n)` from `NVM_SCRATCH` with every poll ending on its first read: its 8 transactions, then
the next sector, or NVM_EXIT after sector 4. Log 11: sector `n` begins at micro-step `10 * n`. -/
def Obligations.WriteSectorOrder : Prop :=
  ∀ (s : State) (n : Nat) (img : Image) (ack : Nat → Byte) (rest : List IcAnswer),
    InProgress 10#4 .nvmProgram s → n < 5 → s.mstep.toNat = 10 * n → s.ic = .oracle →
    HoldsImage s.mem 0x70 img → (∀ k, ack k &&& s.profile.ctrl0Req = 0#8) →
    s.icScript = writeSectorAnswers ack n ++ rest →
    ∃ t : State, execN .nvmFlash 10 s = .next t ∧
      requests t.trace = requests s.trace ++ writeSectorRequests s.profile img n ∧
      (writeSectorRequests s.profile img n).length = 8 ∧
      t.icScript = rest ∧ t.mem = s.mem ∧ SameOperands s t ∧ SameResults s t ∧
      (n < 4 → InProgress 10#4 .nvmProgram t ∧ t.mstep.toNat = 10 * (n + 1)) ∧
      (n = 4 → InProgress 10#4 .nvmExit t ∧ t.mstep = 0#8)

/-- R130: the byte compare; a single differing byte anywhere fails. -/
def Obligations.CompareIsByteExact : Prop :=
  ∀ (s : State) (x v : Image), InProgress 10#4 .nvmCompare s →
    HoldsImage s.mem 0x70 x → HoldsImage s.mem 0x98 v →
    ((∀ j < 40, v[j]? = x[j]?) → exec .nvmFlash s = .next (finished s)) ∧
    ((∃ j < 40, v[j]? ≠ x[j]?) → exec .nvmFlash s = .next (failedWith 8#4 s))

/-- R126 to R132: an NVM_FLASH in range whose every transaction succeeds and whose every poll ends on its first
read issues exactly the 128 transactions, leaves the image read in `NVM_IMG`, the patched image in `NVM_SCRATCH` and
the image read back in `NVM_VERIFY`, and ends `OK` if that is the patched image and with `VerifyMismatch` if
not. Log 11: its 154 steps are the issue and the micro-steps of its states. -/
def Obligations.FlashRun : Prop :=
  decode [0x0A#8] = .ok (.nvmFlash, []) ∧
  ∀ (s : State) (c : NvmConfig) (img back : Image) (ackRead ackErase ackProg ackBack : Nat → Byte)
    (rest : List IcAnswer),
    Issuable s → s.ic = .oracle → HasNvmConfig s c → InRange c →
    (∀ k, ackRead k &&& s.profile.ctrl0Req = 0#8) → (∀ k, ackErase k &&& s.profile.ctrl0Req = 0#8) →
    (∀ k, ackProg k &&& s.profile.ctrl0Req = 0#8) → (∀ k, ackBack k &&& s.profile.ctrl0Req = 0#8) →
    s.icScript = flashAnswers ackRead ackErase ackProg ackBack img back ++ rest →
    ∃ t : State, execN .nvmFlash 154 s = .next t ∧
      requests t.trace = requests s.trace ++ flashRequests s.profile (applyConfig s.profile c img) ∧
      (flashRequests s.profile (applyConfig s.profile c img)).length = 128 ∧
      t.icScript = rest ∧ t.busy = false ∧ t.fault = false ∧ t.mstep = 0#8 ∧ t.curCmd = 10#4 ∧
      t.ic = .oracle ∧
      (∀ a : Nat, Memory.get t.mem a =
        if 0x48 ≤ a ∧ a < 0x70 then img[a - 0x48]?
        else if 0x70 ≤ a ∧ a < 0x98 then (applyConfig s.profile c img)[a - 0x70]?
        else if 0x98 ≤ a ∧ a < 0xC0 then back[a - 0x98]?
        else Memory.get s.mem a) ∧
      SameOperands s t ∧ SameResults s t ∧
      (back = applyConfig s.profile c img → t.seq = .done ∧ t.err = 0#4 ∧ t.ok = true) ∧
      (back ≠ applyConfig s.profile c img → t.seq = .failed ∧ t.err = 8#4 ∧ t.ok = false)

/-- R133, with its premise on the IC as the answers it gives: two NVM_FLASH in a row with the same configuration both
end `OK`; the second run's `NVM_IMG` is the first run's `NVM_SCRATCH`, its patch changes nothing and it programs the
same bytes. Log 11: the number of steps. -/
def Obligations.FlashTwice : Prop :=
  ∀ (s : State) (c : NvmConfig) (img patched : Image) (ack : Nat → Byte) (rest : List IcAnswer),
    Issuable s → s.ic = .oracle → HasNvmConfig s c → InRange c →
    (∀ k, ack k &&& s.profile.ctrl0Req = 0#8) → patched = applyConfig s.profile c img →
    s.icScript = flashAnswers ack ack ack ack img patched ++
      (flashAnswers ack ack ack ack patched patched ++ rest) →
    ∃ t u : State, execN .nvmFlash 154 s = .next t ∧ execN .nvmFlash 154 t = .next u ∧
      t.ok = true ∧ u.ok = true ∧
      HoldsImage t.mem 0x70 patched ∧ HoldsImage u.mem 0x48 patched ∧ HoldsImage u.mem 0x70 patched ∧
      HoldsImage u.mem 0x98 patched ∧
      requests u.trace = requests t.trace ++ flashRequests s.profile patched ∧ u.icScript = rest

/-! ## Errors (R135 to R141) -/

/-- R28, R131, R137, R139: a step whose transaction fails ends the command there: nothing but the status and the
position is written, and the error is `NotPresent` in PRESENCE and `BusError` everywhere else. -/
def Obligations.BusFailureEndsTheCommand : Prop :=
  ∀ (i : Instr) (s t : State) (e : BusEvent),
    exec i s = .next t → t.trace = s.trace ++ [e] → e.answer = .fail →
    t = failedWith (if s.seq = .presence then 2#4 else 1#4) (afterBus s e.req)

/-- R135, R136: which error each command can end with, and that `Timeout` and `NotAttached` need a clock, and for the
NVM polls a budget. -/
def Obligations.ErrorsAllowedPerCommand : Prop :=
  ∀ (i : Instr) (s t : State), exec i s = .next t →
    t.err = s.err ∨ t.err = 0#4 ∨
    (t.err ∈ errorsOf i ∧
      (t.err = 3#4 ∨ t.err = 4#4 → s.clkPresent = true) ∧
      (i = .nvmRead ∨ i = .nvmFlash → t.err = 3#4 → s.profile.nvmAckBudgetMs ≠ none))

/-! ## The machine as a whole -/

/-- The reset state, under any profile, meets the invariant. -/
def Obligations.ResetSatisfiesInvariant : Prop :=
  ∀ p : DeviceProfile, Invariant (State.resetWith p)

/-- The invariant is kept by every step, from every state that meets it: the memory's canonical form, the status
rules of R16 and R135, the legal positions of R18 and R19, the position of a faulted block (R140), the sector and
capture ranges. -/
def Obligations.StepKeepsInvariant : Prop :=
  ∀ s t : State, Invariant s → step s = .next t → Invariant t

/-- R19, R56: from every state that meets the invariant, under a legal profile, the machine has a next state, and it
meets the invariant: no command and no input of the host ends in a fault or a refusal of the model. Log 12 (the model's
choice): a block that takes no step has a next state all the same. Log 20: the model's own faults stand where the
invariant does not hold. -/
def Obligations.StepAlwaysAnswersNext : Prop :=
  ∀ s : State, s.profile.legal = true → Invariant s → ∃ t, step s = .next t ∧ Invariant t

/-- R6 with log 1, R29, R16: no step changes the profile, no step but a reset clears `FAULT`, and a bus transaction is
issued only by a step of a busy block that is not faulted. -/
def Obligations.WholeMachineRules : Prop :=
  ∀ s t : State, step s = .next t →
    t.profile = s.profile ∧
    (s.fault = true → t.fault = false → ∃ rest, s.inputs = .reset :: rest) ∧
    (t.trace ≠ s.trace → s.busy = true ∧ s.fault = false ∧ (s.inputs = [] ∨ ∃ rest, s.inputs = .run :: rest)) ∧
    (t.fault = true → s.fault = false → s.busy = true ∨ ∃ v rest, s.inputs = .hostWrite 0x00#8 v :: rest)
end

