-- ==== Sys2Proof/Laws/Memory.lean ====
section
/-!
SUPPORT. The laws of the buffer memory: read after write, the canonical form is kept by every write, blocks of
bytes and images (R15, R21, R24, R33).
-/

namespace Sys2Proof.Machine

@[simp] theorem Memory.get_nil (a : Nat) : Memory.get [] a = none := rfl

theorem Memory.get_set_same (m : Memory) (a : Nat) (b : Byte) : Memory.get (Memory.set m a b) a = some b := by
  induction m with
  | nil => simp [Memory.set, Memory.get]
  | cons c m ih =>
    obtain ⟨k, c⟩ := c
    simp only [Memory.set]
    split
    · simp [Memory.get]
    · split
      · simp [Memory.get]
      · rename_i h1 h2
        simp [Memory.get, h2, ih]

theorem Memory.get_set_ne (m : Memory) {a x : Nat} (b : Byte) (h : x ≠ a) :
    Memory.get (Memory.set m a b) x = Memory.get m x := by
  induction m with
  | nil => simp [Memory.set, Memory.get, h]
  | cons c m ih =>
    obtain ⟨k, c⟩ := c
    simp only [Memory.set]
    split
    · simp [Memory.get, h]
    · split
      · rename_i h1 h2
        subst h2
        simp [Memory.get, h]
      · simp [Memory.get, ih]

theorem Memory.get_set (m : Memory) (a x : Nat) (b : Byte) :
    Memory.get (Memory.set m a b) x = if x = a then some b else Memory.get m x := by
  by_cases h : x = a
  · subst h; simp [Memory.get_set_same]
  · simp [h, Memory.get_set_ne]

theorem Memory.rising_mono {lo lo' : Nat} {m : Memory} (h : lo' ≤ lo) (hm : Memory.rising lo m = true) :
    Memory.rising lo' m = true := by
  cases m with
  | nil => rfl
  | cons c m =>
    obtain ⟨k, c⟩ := c
    simp only [Memory.rising, Bool.and_eq_true, decide_eq_true_eq] at *
    exact ⟨⟨by omega, hm.1.2⟩, hm.2⟩

theorem Memory.rising_set {lo a : Nat} {m : Memory} (b : Byte) (hm : Memory.rising lo m = true)
    (h1 : lo ≤ a) (h2 : a < bufEnd) : Memory.rising lo (Memory.set m a b) = true := by
  induction m generalizing lo with
  | nil => simp [Memory.set, Memory.rising, h1, h2]
  | cons c m ih =>
    obtain ⟨k, c⟩ := c
    simp only [Memory.rising, Bool.and_eq_true, decide_eq_true_eq] at hm
    simp only [Memory.set]
    split
    · simp only [Memory.rising, Bool.and_eq_true, decide_eq_true_eq]
      exact ⟨⟨h1, h2⟩, ⟨by omega, hm.1.2⟩, hm.2⟩
    · split
      · rename_i h3 h4
        subst h4
        simp only [Memory.rising, Bool.and_eq_true, decide_eq_true_eq]
        exact hm
      · simp only [Memory.rising, Bool.and_eq_true, decide_eq_true_eq]
        exact ⟨hm.1, ih hm.2 (by omega)⟩

/-- A write inside the buffers keeps the canonical form. -/
theorem Memory.wf_set {a : Nat} {m : Memory} (b : Byte) (hm : Memory.wf m = true)
    (h1 : capBase ≤ a) (h2 : a < bufEnd) : Memory.wf (Memory.set m a b) = true :=
  Memory.rising_set b hm h1 h2

/-- A block write inside the buffers keeps the canonical form. -/
theorem Memory.wf_setBytes {a : Nat} {m : Memory} (bs : List Byte) (hm : Memory.wf m = true)
    (h1 : capBase ≤ a) (h2 : a + bs.length ≤ bufEnd) : Memory.wf (Memory.setBytes m a bs) = true := by
  induction bs generalizing m a with
  | nil => exact hm
  | cons b bs ih =>
    simp only [Memory.setBytes, List.length_cons] at *
    exact ih (Memory.wf_set b hm h1 (by omega)) (by omega) (by omega)

/-- What a block write leaves at every address. -/
theorem Memory.get_setBytes (m : Memory) (a x : Nat) (bs : List Byte) :
    Memory.get (Memory.setBytes m a bs) x =
      if a ≤ x ∧ x < a + bs.length then bs[x - a]? else Memory.get m x := by
  induction bs generalizing m a with
  | nil => simp [Memory.setBytes]
  | cons b bs ih =>
    simp only [Memory.setBytes, List.length_cons, ih, Memory.get_set]
    by_cases h : x = a
    · subst h; simp
    · by_cases h1 : a + 1 ≤ x ∧ x < a + 1 + bs.length
      · rw [if_pos h1, if_pos (by omega)]
        have : x - a = (x - (a + 1)) + 1 := by omega
        rw [this, List.getElem?_cons_succ]
      · rw [if_neg h1, if_neg h, if_neg (by omega)]

theorem Memory.get_setBytes_out {m : Memory} {a x : Nat} {bs : List Byte} (h : x < a ∨ a + bs.length ≤ x) :
    Memory.get (Memory.setBytes m a bs) x = Memory.get m x := by
  rw [Memory.get_setBytes, if_neg (by omega)]

theorem Memory.get_setBytes_in {m : Memory} {a j : Nat} {bs : List Byte} (h : j < bs.length) :
    Memory.get (Memory.setBytes m a bs) (a + j) = bs[j]? := by
  rw [Memory.get_setBytes, if_pos (by omega)]
  congr 1
  omega

/-- A block reads as `bs` exactly when each of its bytes does. -/
theorem Memory.getBytes_eq_some {m : Memory} {a n : Nat} {bs : List Byte} :
    Memory.getBytes m a n = some bs ↔ bs.length = n ∧ ∀ j < n, Memory.get m (a + j) = bs[j]? := by
  induction n generalizing a bs with
  | zero =>
    constructor
    · intro h
      simp only [Memory.getBytes, Option.some.injEq] at h
      subst h
      simp
    · rintro ⟨h, -⟩
      simp [Memory.getBytes, List.eq_nil_of_length_eq_zero h]
  | succ n ih =>
    constructor
    · intro h
      simp only [Memory.getBytes] at h
      split at h
      · rename_i b bs' hb hbs
        simp only [Option.some.injEq] at h
        subst h
        obtain ⟨hl, hj⟩ := ih.1 hbs
        refine ⟨by simp [hl], fun j hj' => ?_⟩
        cases j with
        | zero => simpa using hb
        | succ j =>
          have := hj j (by omega)
          rw [List.getElem?_cons_succ, ← this]
          congr 1
          omega
      · simp at h
    · rintro ⟨hl, hj⟩
      cases bs with
      | nil => simp at hl
      | cons b bs =>
        have h0 : Memory.get m a = some b := by simpa using hj 0 (by omega)
        have h1 : Memory.getBytes m (a + 1) n = some bs := by
          refine ih.2 ⟨by simpa using hl, fun j hj' => ?_⟩
          have := hj (j + 1) (by omega)
          rw [List.getElem?_cons_succ] at this
          rw [← this]
          congr 1
          omega
        simp [Memory.getBytes, h0, h1]

theorem Memory.getBytes_length {m : Memory} {a n : Nat} {bs : List Byte}
    (h : Memory.getBytes m a n = some bs) : bs.length = n := (Memory.getBytes_eq_some.1 h).1

/-- A block reads back what was written to it. -/
theorem Memory.getBytes_setBytes (m : Memory) (a : Nat) (bs : List Byte) :
    Memory.getBytes (Memory.setBytes m a bs) a bs.length = some bs :=
  Memory.getBytes_eq_some.2 ⟨rfl, fun _ hj => Memory.get_setBytes_in hj⟩

/-- A block write leaves every block outside it. -/
theorem Memory.getBytes_setBytes_out {m : Memory} {a x n : Nat} {bs : List Byte}
    (h : x + n ≤ a ∨ a + bs.length ≤ x) :
    Memory.getBytes (Memory.setBytes m a bs) x n = Memory.getBytes m x n := by
  induction n generalizing x with
  | zero => rfl
  | succ n ih =>
    simp only [Memory.getBytes]
    rw [ih (x := x + 1) (by omega), Memory.get_setBytes_out (by omega)]

theorem imageOf_toList (img : Image) : imageOf img.toList = img := by
  ext j hj
  simp [imageOf]

/-- An image buffer reads back the image written to it. -/
theorem bufferImage_storeImage (m : Memory) (base : Nat) (img : Image) :
    bufferImage (storeImage m base img) base = some img := by
  have h := Memory.getBytes_setBytes m base img.toList
  rw [Vector.length_toList] at h
  simp [bufferImage, storeImage, h, imageOf_toList]

/-- Writing an image changes no byte outside its buffer. -/
theorem Memory.get_storeImage_out {m : Memory} {base x : Nat} {img : Image} (h : x < base ∨ base + 40 ≤ x) :
    Memory.get (storeImage m base img) x = Memory.get m x :=
  Memory.get_setBytes_out (by simpa using h)

/-- Writing an image leaves every buffer that does not meet its own. -/
theorem bufferImage_storeImage_out {m : Memory} {base x : Nat} {img : Image}
    (h : x + 40 ≤ base ∨ base + 40 ≤ x) : bufferImage (storeImage m base img) x = bufferImage m x := by
  simp only [bufferImage, storeImage]
  rw [Memory.getBytes_setBytes_out (by simpa using h)]

theorem Memory.wf_storeImage {m : Memory} {base : Nat} (img : Image) (hm : Memory.wf m = true)
    (h1 : capBase ≤ base) (h2 : base + 40 ≤ bufEnd) : Memory.wf (storeImage m base img) = true :=
  Memory.wf_setBytes _ hm h1 (by simpa using h2)

end Sys2Proof.Machine
end

