-- ==== Sys2Proof/Laws/Ops.lean ====
section
/-!
SUPPORT. One lemma per shared operation, saying once what it can answer: the IC's answers (R28), a transaction
(R27, R29), the time check and the poll (R78), operands (R24), the command lifecycle (R56, R58).
`Post P o`: the outcome `o` is a next state and `P` holds of it. `Sat P o`: if `o` is a next state, `P` holds
of it.
-/

namespace Sys2Proof.Machine

/-- The outcome is a next state with `P`. -/
def Post (P : State → Prop) (o : Out) : Prop := ∃ t, o = .next t ∧ P t

/-- If the outcome is a next state, `P` holds of it. -/
def Sat (P : State → Prop) (o : Out) : Prop := ∀ t, o = .next t → P t

@[simp] theorem post_next {P : State → Prop} {t : State} : Post P (.next t) ↔ P t :=
  ⟨fun ⟨_, h, hp⟩ => by cases h; exact hp, fun h => ⟨t, rfl, h⟩⟩

@[simp] theorem post_fault {P : State → Prop} {r : Fault} : Post P (.fault r) ↔ False :=
  ⟨(fun ⟨_, h, _⟩ => nomatch h), False.elim⟩

@[simp] theorem post_refused {P : State → Prop} {r : Refusal} : Post P (.refused r) ↔ False :=
  ⟨(fun ⟨_, h, _⟩ => nomatch h), False.elim⟩

@[simp] theorem sat_next {P : State → Prop} {t : State} : Sat P (.next t) ↔ P t :=
  ⟨fun h => h t rfl, fun h _ e => by cases e; exact h⟩

@[simp] theorem sat_fault {P : State → Prop} {r : Fault} : Sat P (.fault r) := fun _ e => by cases e

@[simp] theorem sat_refused {P : State → Prop} {r : Refusal} : Sat P (.refused r) := fun _ e => by cases e

theorem Post.sat {P : State → Prop} {o : Out} (h : Post P o) : Sat P o := by
  obtain ⟨t, rfl, hp⟩ := h
  simpa using hp

theorem Post.mono {P Q : State → Prop} {o : Out} (h : Post P o) (hpq : ∀ t, P t → Q t) : Post Q o := by
  obtain ⟨t, rfl, hp⟩ := h
  simpa using hpq t hp

/-! ## The IC's answers (R28) -/

/-- R28: the bytes of a successful answer: exactly `n` for a read, none for a write. -/
def Fits : BusReq → List Byte → Prop
  | .read _ n, bytes => bytes.length = n
  | .write _ _, bytes => bytes = []

/-- R28: a successful read answers exactly `n` bytes, a successful write none. -/
theorem shapeAnswer_length {history : List BusEvent} {req : BusReq} {a : IcAnswer} {bytes : List Byte}
    (h : shapeAnswer history req a = .ok bytes) :
    Fits req bytes := by
  cases a with
  | fail => simp [shapeAnswer] at h
  | ok bs =>
    cases req with
    | read r n =>
      simp only [shapeAnswer, IcAnswer.ok.injEq] at h
      subst h
      simp [Fits]
    | write r w =>
      simp only [shapeAnswer, IcAnswer.ok.injEq] at h
      exact h.symm

theorem oracleAnswer_length {s : State} {req : BusReq} {bytes : List Byte}
    (h : oracleAnswer s req = .ok bytes) :
    Fits req bytes := by
  unfold oracleAnswer at h
  split at h
  · unfold freeAnswer at h
    split at h
    · cases h
    · exact shapeAnswer_length h
  · exact shapeAnswer_length h

theorem RefIc.readRegs_length (r : RefIc) (a : Byte) (n : Nat) : (r.readRegs a n).length = n := by
  induction n generalizing a with
  | zero => rfl
  | succ n ih => simp [RefIc.readRegs, ih]

/-- R28, R30: whichever IC answers, a read that does not fail gives exactly `n` bytes. -/
theorem icAnswer_length {s : State} {req : BusReq} {bytes : List Byte} (h : icAnswer s req = .ok bytes) :
    Fits req bytes := by
  unfold icAnswer at h
  split at h
  · exact oracleAnswer_length h
  · rename_i r _
    split at h
    · cases ho : oracleAnswer s req with
      | fail =>
        rw [ho] at h
        simp only [neverFail] at h
        exact shapeAnswer_length h
      | ok bs =>
        rw [ho] at h
        simp only [neverFail, IcAnswer.ok.injEq] at h
        subst h
        exact oracleAnswer_length ho
    · cases req with
      | read reg n =>
        simp only [RefIc.respond, IcAnswer.ok.injEq] at h
        subst h
        exact RefIc.readRegs_length r reg n
      | write reg w =>
        simp only [RefIc.respond, IcAnswer.ok.injEq] at h
        exact h.symm

theorem icAnswer_read_length {s : State} {reg : Byte} {n : Nat} {bytes : List Byte}
    (h : icAnswer s (.read reg n) = .ok bytes) : bytes.length = n := icAnswer_length h

/-- A scripted answer of the right length is the oracle's answer. -/
theorem shapeAnswer_read {history : List BusEvent} {reg : Byte} {bytes : List Byte} :
    shapeAnswer history (.read reg bytes.length) (.ok bytes) = .ok bytes := by
  simp only [shapeAnswer, IcAnswer.ok.injEq]
  apply List.ext_getElem (by simp)
  intro j h1 h2
  simp [h2]

/-- The oracle answers a read with the scripted bytes. -/
theorem icAnswer_scripted_read {s : State} {reg : Byte} {n : Nat} {bytes : List Byte} {rest : List IcAnswer}
    (hic : s.ic = .oracle) (hs : s.icScript = .ok bytes :: rest) (hn : bytes.length = n) :
    icAnswer s (.read reg n) = .ok bytes := by
  subst hn
  simp [icAnswer, hic, oracleAnswer, hs, shapeAnswer_read]

/-- The oracle acknowledges a write as scripted. -/
theorem icAnswer_scripted_write {s : State} {reg : Byte} {w bytes : List Byte} {rest : List IcAnswer}
    (hic : s.ic = .oracle) (hs : s.icScript = .ok bytes :: rest) :
    icAnswer s (.write reg w) = .ok [] := by
  simp [icAnswer, hic, oracleAnswer, hs, shapeAnswer]

/-! ## Transactions, polls, operands -/

theorem post_busReadOr {P : State → Prop} {reg : Byte} {n : Nat} {onFail : State → Out}
    {k : List Byte → State → Out} {s : State}
    (hf : icAnswer s (.read reg n) = .fail → Post P (onFail (afterBus s (.read reg n))))
    (hk : ∀ bytes, bytes.length = n → icAnswer s (.read reg n) = .ok bytes →
      Post P (k bytes (afterBus s (.read reg n)))) :
    Post P (busReadOr reg n onFail k s) := by
  unfold busReadOr
  split
  · exact hf ‹_›
  · exact hk _ (icAnswer_read_length ‹_›) ‹_›

theorem post_busRead {P : State → Prop} {reg : Byte} {n : Nat} {k : List Byte → State → Out} {s : State}
    (hf : P (raise .busError (afterBus s (.read reg n))))
    (hk : ∀ bytes, bytes.length = n → icAnswer s (.read reg n) = .ok bytes →
      Post P (k bytes (afterBus s (.read reg n)))) :
    Post P (busRead reg n k s) :=
  post_busReadOr (fun _ => by simpa [busError] using hf) hk

theorem post_busWrite {P : State → Prop} {reg : Byte} {w : List Byte} {k : State → Out} {s : State}
    (hf : P (raise .busError (afterBus s (.write reg w))))
    (hk : Post P (k (afterBus s (.write reg w)))) :
    Post P (busWrite reg w k s) := by
  unfold busWrite
  split
  · simpa [busError] using hf
  · exact hk

theorem post_timeCheck {P : State → Prop} {budget : Option Nat} {e : ErrCode} {again : State → State}
    {s : State} (hs : P (again s)) (hn : P (again (afterNow s))) (he : P (raise e (afterNow s))) :
    Post P (timeCheck budget e again s) := by
  unfold timeCheck
  split
  · simpa using hs
  · split
    · simpa using he
    · simpa using hn

theorem post_pollRead {P : State → Prop} {reg : Byte} {done : Byte → Bool} {budget : Option Nat}
    {e : ErrCode} {k : State → State} {s : State}
    (hf : P (raise .busError (afterBus s (.read reg 1)))) (hk : P (k (afterBus s (.read reg 1))))
    (hs : P (afterBus s (.read reg 1))) (hn : P (afterNow (afterBus s (.read reg 1))))
    (he : P (raise e (afterNow (afterBus s (.read reg 1))))) :
    Post P (pollRead reg done budget e k s) := by
  unfold pollRead
  apply post_busRead hf
  intro bytes _ _
  split
  · simpa using hk
  · exact post_timeCheck hs hn he

theorem post_withOperand {P : State → Prop} {α : Type} {operand : Option α} {k : α → State → Out} {s : State}
    (hf : operand = none → P (setFault s)) (hk : ∀ v, operand = some v → Post P (k v s)) :
    Post P (withOperand operand k s) := by
  unfold withOperand
  split
  · simpa using hf rfl
  · exact hk _ rfl

theorem post_underCommand {P : State → Prop} {opc : BitVec 4} {start body : State → Out} {s : State}
    (hl : s.profile.legal = true) (hfault : s.fault = true → P s)
    (hstart : s.fault = false → s.busy = false → Post P (start s))
    (hbody : s.fault = false → s.busy = true → s.curCmd = opc → Post P (body s))
    (hother : s.busy = true → P (setFault s)) :
    Post P (underCommand opc start body s) := by
  unfold underCommand
  rw [if_neg (by simp [hl])]
  split
  · simpa using hfault ‹_›
  · split
    · exact hstart (by simpa using ‹¬ s.fault = true›) ‹_›
    · split
      · exact hbody (by simpa using ‹¬ s.fault = true›) (by simpa using ‹¬ s.busy = false›) ‹_›
      · simpa using hother (by simpa using ‹¬ s.busy = false›)

/-- The issue of a command (R56), when the block may accept one. -/
theorem underCommand_issue {opc : BitVec 4} {start body : State → Out} {s : State}
    (hl : s.profile.legal = true) (hf : s.fault = false) (hb : s.busy = false) :
    underCommand opc start body s = start s := by
  simp [underCommand, hl, hf, hb]

/-- The next micro-step of the command in progress (R19). -/
theorem underCommand_body {opc : BitVec 4} {start body : State → Out} {s : State}
    (hl : s.profile.legal = true) (hf : s.fault = false) (hb : s.busy = true) (hc : s.curCmd = opc) :
    underCommand opc start body s = body s := by
  simp [underCommand, hl, hf, hb, hc]

theorem underCommand_illegalProfile {opc : BitVec 4} {start body : State → Out} {s : State}
    (hl : s.profile.legal = false) : underCommand opc start body s = .refused .illegalProfile := by
  simp [underCommand, hl]

theorem underCommand_faulted {opc : BitVec 4} {start body : State → Out} {s : State}
    (hl : s.profile.legal = true) (hf : s.fault = true) : underCommand opc start body s = .next s := by
  simp [underCommand, hl, hf]

theorem pureCommand_body {opc : BitVec 4} {body : State → Out} {s : State}
    (hl : s.profile.legal = true) (hf : s.fault = false) (hb : s.busy = true) (hc : s.curCmd = opc)
    (hq : s.seq = .exec) : pureCommand opc body s = body s := by
  simp [pureCommand, underCommand_body hl hf hb hc, hq]

theorem pureCommand_issue {opc : BitVec 4} {body : State → Out} {s : State}
    (hl : s.profile.legal = true) (hf : s.fault = false) (hb : s.busy = false) :
    pureCommand opc body s = .next (issue opc .exec s) := by
  simp [pureCommand, underCommand_issue hl hf hb]

theorem withOperand_none {α : Type} {k : α → State → Out} {s : State} :
    withOperand none k s = .next (setFault s) := rfl

theorem withOperand_of {α : Type} {operand : Option α} {v : α} {k : α → State → Out} {s : State}
    (h : operand = some v) : withOperand operand k s = k v s := by
  rw [h]
  rfl

theorem withOperand_some {α : Type} {v : α} {k : α → State → Out} {s : State} :
    withOperand (some v) k s = k v s := rfl

/-! ## Transactions as equations -/

theorem busReadOr_fail {reg : Byte} {n : Nat} {onFail : State → Out} {k : List Byte → State → Out} {s : State}
    (h : icAnswer s (.read reg n) = .fail) : busReadOr reg n onFail k s = onFail (afterBus s (.read reg n)) := by
  unfold busReadOr
  rw [h]

theorem busReadOr_ok {reg : Byte} {n : Nat} {onFail : State → Out} {k : List Byte → State → Out} {s : State}
    {bytes : List Byte} (h : icAnswer s (.read reg n) = .ok bytes) :
    busReadOr reg n onFail k s = k bytes (afterBus s (.read reg n)) := by
  unfold busReadOr
  rw [h]

theorem busWrite_fail {reg : Byte} {w : List Byte} {k : State → Out} {s : State}
    (h : icAnswer s (.write reg w) = .fail) :
    busWrite reg w k s = .next (raise .busError (afterBus s (.write reg w))) := by
  unfold busWrite
  rw [h]
  rfl

theorem busWrite_ok {reg : Byte} {w bytes : List Byte} {k : State → Out} {s : State}
    (h : icAnswer s (.write reg w) = .ok bytes) : busWrite reg w k s = k (afterBus s (.write reg w)) := by
  unfold busWrite
  rw [h]

/-- The micro-step of a listed primitive, at its place in the list (R19). -/
theorem nvmListStep_at {ops : List NvmOp} {op : NvmOp} {leave : State → State} {s : State}
    (h : ops[s.mstep.toNat]? = some op) :
    nvmListStep ops leave s = nvmOpStep op (if s.mstep.toNat + 1 < ops.length then advance else leave) s := by
  unfold nvmListStep
  rw [h]

/-! ## Several steps -/

theorem execN_one {i : Instr} {s t : State} (h : exec i s = .next t) : execN i 1 s = .next t := by
  simp [execN, h]

theorem execN_add {i : Instr} {n m : Nat} {s t : State} (h : execN i n s = .next t) :
    execN i (n + m) s = execN i m t := by
  induction n generalizing s with
  | zero =>
    simp only [execN, Host.Outcome.next.injEq] at h
    simp [h]
  | succ n ih =>
    rw [Nat.succ_add]
    simp only [execN] at h ⊢
    cases he : exec i s with
    | next u =>
      rw [he] at h
      exact ih h
    | fault r =>
      rw [he] at h
      cases h
    | refused r =>
      rw [he] at h
      cases h

theorem execN_trans {i : Instr} {n m : Nat} {s t u : State} (h : execN i n s = .next t)
    (h2 : execN i m t = .next u) : execN i (n + m) s = .next u := by
  rw [execN_add h, h2]

end Sys2Proof.Machine
end

