-- ==== Sys2Proof/Laws/Patch.lean ====
section
/-!
SUPPORT. The patch primitives bit by bit (R95 to R97): a patched field's bits are the value's, and every other bit of
the image stays.
-/

namespace Sys2Proof.Machine

/-- R96: bit `b` of a patched byte. -/
theorem patchByte_bit {x : Byte} {lsb w val b : Nat} (hb : b < 8) (h : lsb + w ≤ 8) :
    (patchByte x lsb w val).getLsbD b =
      if lsb ≤ b ∧ b < lsb + w then val.testBit (b - lsb) else x.getLsbD b := by
  unfold patchByte
  simp only [BitVec.getLsbD_or, BitVec.getLsbD_and, BitVec.getLsbD_not, BitVec.getLsbD_shiftLeft,
    BitVec.getLsbD_ofNat, Nat.testBit_two_pow_sub_one, hb]
  by_cases h1 : lsb ≤ b
  · by_cases h2 : b < lsb + w
    · have : ¬ b < lsb := by omega
      have : b - lsb < w := by omega
      have : b - lsb < 8 := by omega
      simp [*]
    · have : ¬ b - lsb < w := by omega
      simp [*]
  · have : b < lsb := by omega
    simp [*]

/-- R97: bit `b` of a patched window. -/
theorem patchWindow_bit {x : U16} {lsb w val b : Nat} (hb : b < 16) (h : lsb + w ≤ 16) :
    (patchWindow x lsb w val).getLsbD b =
      if lsb ≤ b ∧ b < lsb + w then val.testBit (b - lsb) else x.getLsbD b := by
  unfold patchWindow
  simp only [BitVec.getLsbD_or, BitVec.getLsbD_and, BitVec.getLsbD_not, BitVec.getLsbD_shiftLeft,
    BitVec.getLsbD_ofNat, Nat.testBit_two_pow_sub_one, hb]
  by_cases h1 : lsb ≤ b
  · by_cases h2 : b < lsb + w
    · have : ¬ b < lsb := by omega
      have : b - lsb < w := by omega
      have : b - lsb < 16 := by omega
      simp [*]
    · have : ¬ b - lsb < w := by omega
      simp [*]
  · have : b < lsb := by omega
    simp [*]

theorem imageBit_set {img : Image} {i j b : Nat} {x : Byte} (hi : i < 40) :
    imageBit (img.setIfInBounds i x) j b = if j = i then x.getLsbD b else imageBit img j b := by
  unfold imageBit
  rw [Vector.getElem?_setIfInBounds]
  by_cases h : i = j
  · subst h
    simp [hi]
  · simp [h, Ne.symm h]

end Sys2Proof.Machine
end

