-- ==== Sys2Proof/Laws/PerInstr.lean ====
section
/-!
SUPPORT. Statements per command. `Word` (R51, R53, R54): the word of a well-formed command is one byte, and it is
`RSV = 0` over the command's opcode, or a byte of the illegal space for a command that has none.
-/

namespace Sys2Proof.Laws.Word

open Sys2Proof.Machine

/-- R51, R53, R54: the word of a well-formed command. -/
def Statement (i : Instr) : Prop :=
  i.wf = true → ∃ w : Byte, encode i = [w] ∧
    match opcodeOf i with
    | some opc => w = 0#4 ++ opc
    | none => illegalWord w = true

theorem pdoDecode : Statement .pdoDecode := fun _ => ⟨_, rfl, rfl⟩

theorem pdoEncode : Statement .pdoEncode := fun _ => ⟨_, rfl, rfl⟩

theorem pdoPower : Statement .pdoPower := fun _ => ⟨_, rfl, rfl⟩

theorem hdrClassify : Statement .hdrClassify := fun _ => ⟨_, rfl, rfl⟩

theorem pdoSelect : Statement .pdoSelect := fun _ => ⟨_, rfl, rfl⟩

theorem presence : Statement .presence := fun _ => ⟨_, rfl, rfl⟩

theorem negotiate : Statement .negotiate := fun _ => ⟨_, rfl, rfl⟩

theorem nvmRead : Statement .nvmRead := fun _ => ⟨_, rfl, rfl⟩

theorem nvmPatch : Statement .nvmPatch := fun _ => ⟨_, rfl, rfl⟩

theorem nvmFlash : Statement .nvmFlash := fun _ => ⟨_, rfl, rfl⟩

theorem illegalOpc (word : Byte) : Statement (.illegalOpc word) := fun h => ⟨word, rfl, h⟩

end Sys2Proof.Laws.Word
end

