-- ==== Sys2Proof/Laws/State.lean ====
section
/-!
SUPPORT. What each update of the state does to each field: the fields it sets, and the fields it leaves. `simp` reads
each as one rewrite rule per field, so no proof unfolds a record update.
-/

namespace Sys2Proof.Machine

/-- R10, R19: what `goto` sets. -/
@[simp] theorem goto_sets (st : SeqState) (s : State) :
    (goto st s).seq = st ∧ (goto st s).mstep = 0#8 :=
  ⟨rfl, rfl⟩

/-- What `goto` leaves. -/
@[simp] theorem goto_keeps (st : SeqState) (s : State) :
    (goto st s).profile = s.profile ∧ (goto st s).err = s.err ∧ (goto st s).busy = s.busy ∧
    (goto st s).ok = s.ok ∧ (goto st s).fault = s.fault ∧ (goto st s).clkPresent = s.clkPresent ∧
    (goto st s).onInterrupt = s.onInterrupt ∧ (goto st s).arg0 = s.arg0 ∧ (goto st s).arg1 = s.arg1 ∧
    (goto st s).res0 = s.res0 ∧ (goto st s).res1 = s.res1 ∧ (goto st s).res2 = s.res2 ∧
    (goto st s).negMinI = s.negMinI ∧ (goto st s).negMinV = s.negMinV ∧ (goto st s).negMaxV = s.negMaxV ∧
    (goto st s).nvcPdo1I = s.nvcPdo1I ∧ (goto st s).nvcPdo2V = s.nvcPdo2V ∧
    (goto st s).nvcPdo2I = s.nvcPdo2I ∧ (goto st s).nvcPdo3V = s.nvcPdo3V ∧
    (goto st s).nvcPdo3I = s.nvcPdo3I ∧ (goto st s).nvcFlexI = s.nvcFlexI ∧
    (goto st s).numValid = s.numValid ∧ (goto st s).useSrc = s.useSrc ∧
    (goto st s).onlyAbove5V = s.onlyAbove5V ∧ (goto st s).gpioCfg = s.gpioCfg ∧
    (goto st s).capCount = s.capCount ∧ (goto st s).rxHdr = s.rxHdr ∧ (goto st s).mem = s.mem ∧
    (goto st s).tStart = s.tStart ∧ (goto st s).selFound = s.selFound ∧ (goto st s).selBestP = s.selBestP ∧
    (goto st s).selBestIdx = s.selBestIdx ∧ (goto st s).selI = s.selI ∧ (goto st s).selWord = s.selWord ∧
    (goto st s).sect = s.sect ∧ (goto st s).curCmd = s.curCmd ∧ (goto st s).trace = s.trace ∧
    (goto st s).inputs = s.inputs ∧ (goto st s).ic = s.ic ∧ (goto st s).icScript = s.icScript ∧
    (goto st s).clkScript = s.clkScript ∧ (goto st s).draws = s.draws ∧ (goto st s).hostRdata = s.hostRdata :=
  ⟨rfl, rfl, rfl, rfl, rfl, rfl, rfl, rfl, rfl, rfl, rfl, rfl, rfl, rfl, rfl, rfl, rfl, rfl, rfl, rfl, rfl,
  rfl, rfl, rfl, rfl, rfl, rfl, rfl, rfl, rfl, rfl, rfl, rfl, rfl, rfl, rfl, rfl, rfl, rfl, rfl, rfl, rfl,
  rfl⟩

/-- R19: what `advance` sets. -/
@[simp] theorem advance_sets (s : State) :
    (advance s).mstep = s.mstep + 1#8 := rfl

/-- What `advance` leaves. -/
@[simp] theorem advance_keeps (s : State) :
    (advance s).profile = s.profile ∧ (advance s).err = s.err ∧ (advance s).busy = s.busy ∧
    (advance s).ok = s.ok ∧ (advance s).fault = s.fault ∧ (advance s).seq = s.seq ∧
    (advance s).clkPresent = s.clkPresent ∧ (advance s).onInterrupt = s.onInterrupt ∧
    (advance s).arg0 = s.arg0 ∧ (advance s).arg1 = s.arg1 ∧ (advance s).res0 = s.res0 ∧
    (advance s).res1 = s.res1 ∧ (advance s).res2 = s.res2 ∧ (advance s).negMinI = s.negMinI ∧
    (advance s).negMinV = s.negMinV ∧ (advance s).negMaxV = s.negMaxV ∧ (advance s).nvcPdo1I = s.nvcPdo1I ∧
    (advance s).nvcPdo2V = s.nvcPdo2V ∧ (advance s).nvcPdo2I = s.nvcPdo2I ∧
    (advance s).nvcPdo3V = s.nvcPdo3V ∧ (advance s).nvcPdo3I = s.nvcPdo3I ∧
    (advance s).nvcFlexI = s.nvcFlexI ∧ (advance s).numValid = s.numValid ∧ (advance s).useSrc = s.useSrc ∧
    (advance s).onlyAbove5V = s.onlyAbove5V ∧ (advance s).gpioCfg = s.gpioCfg ∧
    (advance s).capCount = s.capCount ∧ (advance s).rxHdr = s.rxHdr ∧ (advance s).mem = s.mem ∧
    (advance s).tStart = s.tStart ∧ (advance s).selFound = s.selFound ∧ (advance s).selBestP = s.selBestP ∧
    (advance s).selBestIdx = s.selBestIdx ∧ (advance s).selI = s.selI ∧ (advance s).selWord = s.selWord ∧
    (advance s).sect = s.sect ∧ (advance s).curCmd = s.curCmd ∧ (advance s).trace = s.trace ∧
    (advance s).inputs = s.inputs ∧ (advance s).ic = s.ic ∧ (advance s).icScript = s.icScript ∧
    (advance s).clkScript = s.clkScript ∧ (advance s).draws = s.draws ∧ (advance s).hostRdata = s.hostRdata :=
  ⟨rfl, rfl, rfl, rfl, rfl, rfl, rfl, rfl, rfl, rfl, rfl, rfl, rfl, rfl, rfl, rfl, rfl, rfl, rfl, rfl, rfl,
  rfl, rfl, rfl, rfl, rfl, rfl, rfl, rfl, rfl, rfl, rfl, rfl, rfl, rfl, rfl, rfl, rfl, rfl, rfl, rfl, rfl,
  rfl, rfl⟩

/-- R87: what `gotoStep` sets. -/
@[simp] theorem gotoStep_sets (k : Nat) (s : State) :
    (gotoStep k s).mstep = BitVec.ofNat 8 k := rfl

/-- What `gotoStep` leaves. -/
@[simp] theorem gotoStep_keeps (k : Nat) (s : State) :
    (gotoStep k s).profile = s.profile ∧ (gotoStep k s).err = s.err ∧ (gotoStep k s).busy = s.busy ∧
    (gotoStep k s).ok = s.ok ∧ (gotoStep k s).fault = s.fault ∧ (gotoStep k s).seq = s.seq ∧
    (gotoStep k s).clkPresent = s.clkPresent ∧ (gotoStep k s).onInterrupt = s.onInterrupt ∧
    (gotoStep k s).arg0 = s.arg0 ∧ (gotoStep k s).arg1 = s.arg1 ∧ (gotoStep k s).res0 = s.res0 ∧
    (gotoStep k s).res1 = s.res1 ∧ (gotoStep k s).res2 = s.res2 ∧ (gotoStep k s).negMinI = s.negMinI ∧
    (gotoStep k s).negMinV = s.negMinV ∧ (gotoStep k s).negMaxV = s.negMaxV ∧
    (gotoStep k s).nvcPdo1I = s.nvcPdo1I ∧ (gotoStep k s).nvcPdo2V = s.nvcPdo2V ∧
    (gotoStep k s).nvcPdo2I = s.nvcPdo2I ∧ (gotoStep k s).nvcPdo3V = s.nvcPdo3V ∧
    (gotoStep k s).nvcPdo3I = s.nvcPdo3I ∧ (gotoStep k s).nvcFlexI = s.nvcFlexI ∧
    (gotoStep k s).numValid = s.numValid ∧ (gotoStep k s).useSrc = s.useSrc ∧
    (gotoStep k s).onlyAbove5V = s.onlyAbove5V ∧ (gotoStep k s).gpioCfg = s.gpioCfg ∧
    (gotoStep k s).capCount = s.capCount ∧ (gotoStep k s).rxHdr = s.rxHdr ∧ (gotoStep k s).mem = s.mem ∧
    (gotoStep k s).tStart = s.tStart ∧ (gotoStep k s).selFound = s.selFound ∧
    (gotoStep k s).selBestP = s.selBestP ∧ (gotoStep k s).selBestIdx = s.selBestIdx ∧
    (gotoStep k s).selI = s.selI ∧ (gotoStep k s).selWord = s.selWord ∧ (gotoStep k s).sect = s.sect ∧
    (gotoStep k s).curCmd = s.curCmd ∧ (gotoStep k s).trace = s.trace ∧ (gotoStep k s).inputs = s.inputs ∧
    (gotoStep k s).ic = s.ic ∧ (gotoStep k s).icScript = s.icScript ∧
    (gotoStep k s).clkScript = s.clkScript ∧ (gotoStep k s).draws = s.draws ∧
    (gotoStep k s).hostRdata = s.hostRdata :=
  ⟨rfl, rfl, rfl, rfl, rfl, rfl, rfl, rfl, rfl, rfl, rfl, rfl, rfl, rfl, rfl, rfl, rfl, rfl, rfl, rfl, rfl,
  rfl, rfl, rfl, rfl, rfl, rfl, rfl, rfl, rfl, rfl, rfl, rfl, rfl, rfl, rfl, rfl, rfl, rfl, rfl, rfl, rfl,
  rfl, rfl⟩

/-- R56: what `issue` sets. -/
@[simp] theorem issue_sets (opc : BitVec 4) (st : SeqState) (s : State) :
    (issue opc st s).err = 0#4 ∧ (issue opc st s).busy = true ∧ (issue opc st s).ok = false ∧
    (issue opc st s).seq = st ∧ (issue opc st s).mstep = 0#8 ∧ (issue opc st s).curCmd = opc :=
  ⟨rfl, rfl, rfl, rfl, rfl, rfl⟩

/-- What `issue` leaves. -/
@[simp] theorem issue_keeps (opc : BitVec 4) (st : SeqState) (s : State) :
    (issue opc st s).profile = s.profile ∧ (issue opc st s).fault = s.fault ∧
    (issue opc st s).clkPresent = s.clkPresent ∧ (issue opc st s).onInterrupt = s.onInterrupt ∧
    (issue opc st s).arg0 = s.arg0 ∧ (issue opc st s).arg1 = s.arg1 ∧ (issue opc st s).res0 = s.res0 ∧
    (issue opc st s).res1 = s.res1 ∧ (issue opc st s).res2 = s.res2 ∧
    (issue opc st s).negMinI = s.negMinI ∧ (issue opc st s).negMinV = s.negMinV ∧
    (issue opc st s).negMaxV = s.negMaxV ∧ (issue opc st s).nvcPdo1I = s.nvcPdo1I ∧
    (issue opc st s).nvcPdo2V = s.nvcPdo2V ∧ (issue opc st s).nvcPdo2I = s.nvcPdo2I ∧
    (issue opc st s).nvcPdo3V = s.nvcPdo3V ∧ (issue opc st s).nvcPdo3I = s.nvcPdo3I ∧
    (issue opc st s).nvcFlexI = s.nvcFlexI ∧ (issue opc st s).numValid = s.numValid ∧
    (issue opc st s).useSrc = s.useSrc ∧ (issue opc st s).onlyAbove5V = s.onlyAbove5V ∧
    (issue opc st s).gpioCfg = s.gpioCfg ∧ (issue opc st s).capCount = s.capCount ∧
    (issue opc st s).rxHdr = s.rxHdr ∧ (issue opc st s).mem = s.mem ∧ (issue opc st s).tStart = s.tStart ∧
    (issue opc st s).selFound = s.selFound ∧ (issue opc st s).selBestP = s.selBestP ∧
    (issue opc st s).selBestIdx = s.selBestIdx ∧ (issue opc st s).selI = s.selI ∧
    (issue opc st s).selWord = s.selWord ∧ (issue opc st s).sect = s.sect ∧
    (issue opc st s).trace = s.trace ∧ (issue opc st s).inputs = s.inputs ∧ (issue opc st s).ic = s.ic ∧
    (issue opc st s).icScript = s.icScript ∧ (issue opc st s).clkScript = s.clkScript ∧
    (issue opc st s).draws = s.draws ∧ (issue opc st s).hostRdata = s.hostRdata :=
  ⟨rfl, rfl, rfl, rfl, rfl, rfl, rfl, rfl, rfl, rfl, rfl, rfl, rfl, rfl, rfl, rfl, rfl, rfl, rfl, rfl, rfl,
  rfl, rfl, rfl, rfl, rfl, rfl, rfl, rfl, rfl, rfl, rfl, rfl, rfl, rfl, rfl, rfl, rfl, rfl⟩

/-- R57: what `endOk` sets. -/
@[simp] theorem endOk_sets (s : State) :
    (endOk s).err = 0#4 ∧ (endOk s).busy = false ∧ (endOk s).ok = true ∧ (endOk s).seq = .done ∧
    (endOk s).mstep = 0#8 :=
  ⟨rfl, rfl, rfl, rfl, rfl⟩

/-- What `endOk` leaves. -/
@[simp] theorem endOk_keeps (s : State) :
    (endOk s).profile = s.profile ∧ (endOk s).fault = s.fault ∧ (endOk s).clkPresent = s.clkPresent ∧
    (endOk s).onInterrupt = s.onInterrupt ∧ (endOk s).arg0 = s.arg0 ∧ (endOk s).arg1 = s.arg1 ∧
    (endOk s).res0 = s.res0 ∧ (endOk s).res1 = s.res1 ∧ (endOk s).res2 = s.res2 ∧
    (endOk s).negMinI = s.negMinI ∧ (endOk s).negMinV = s.negMinV ∧ (endOk s).negMaxV = s.negMaxV ∧
    (endOk s).nvcPdo1I = s.nvcPdo1I ∧ (endOk s).nvcPdo2V = s.nvcPdo2V ∧ (endOk s).nvcPdo2I = s.nvcPdo2I ∧
    (endOk s).nvcPdo3V = s.nvcPdo3V ∧ (endOk s).nvcPdo3I = s.nvcPdo3I ∧ (endOk s).nvcFlexI = s.nvcFlexI ∧
    (endOk s).numValid = s.numValid ∧ (endOk s).useSrc = s.useSrc ∧ (endOk s).onlyAbove5V = s.onlyAbove5V ∧
    (endOk s).gpioCfg = s.gpioCfg ∧ (endOk s).capCount = s.capCount ∧ (endOk s).rxHdr = s.rxHdr ∧
    (endOk s).mem = s.mem ∧ (endOk s).tStart = s.tStart ∧ (endOk s).selFound = s.selFound ∧
    (endOk s).selBestP = s.selBestP ∧ (endOk s).selBestIdx = s.selBestIdx ∧ (endOk s).selI = s.selI ∧
    (endOk s).selWord = s.selWord ∧ (endOk s).sect = s.sect ∧ (endOk s).curCmd = s.curCmd ∧
    (endOk s).trace = s.trace ∧ (endOk s).inputs = s.inputs ∧ (endOk s).ic = s.ic ∧
    (endOk s).icScript = s.icScript ∧ (endOk s).clkScript = s.clkScript ∧ (endOk s).draws = s.draws ∧
    (endOk s).hostRdata = s.hostRdata :=
  ⟨rfl, rfl, rfl, rfl, rfl, rfl, rfl, rfl, rfl, rfl, rfl, rfl, rfl, rfl, rfl, rfl, rfl, rfl, rfl, rfl, rfl,
  rfl, rfl, rfl, rfl, rfl, rfl, rfl, rfl, rfl, rfl, rfl, rfl, rfl, rfl, rfl, rfl, rfl, rfl, rfl⟩

/-- R137: what `raise` sets. -/
@[simp] theorem raise_sets (e : ErrCode) (s : State) :
    (raise e s).err = errNumber e ∧ (raise e s).busy = false ∧ (raise e s).ok = false ∧
    (raise e s).seq = .failed ∧ (raise e s).mstep = 0#8 :=
  ⟨rfl, rfl, rfl, rfl, rfl⟩

/-- What `raise` leaves. -/
@[simp] theorem raise_keeps (e : ErrCode) (s : State) :
    (raise e s).profile = s.profile ∧ (raise e s).fault = s.fault ∧ (raise e s).clkPresent = s.clkPresent ∧
    (raise e s).onInterrupt = s.onInterrupt ∧ (raise e s).arg0 = s.arg0 ∧ (raise e s).arg1 = s.arg1 ∧
    (raise e s).res0 = s.res0 ∧ (raise e s).res1 = s.res1 ∧ (raise e s).res2 = s.res2 ∧
    (raise e s).negMinI = s.negMinI ∧ (raise e s).negMinV = s.negMinV ∧ (raise e s).negMaxV = s.negMaxV ∧
    (raise e s).nvcPdo1I = s.nvcPdo1I ∧ (raise e s).nvcPdo2V = s.nvcPdo2V ∧
    (raise e s).nvcPdo2I = s.nvcPdo2I ∧ (raise e s).nvcPdo3V = s.nvcPdo3V ∧
    (raise e s).nvcPdo3I = s.nvcPdo3I ∧ (raise e s).nvcFlexI = s.nvcFlexI ∧
    (raise e s).numValid = s.numValid ∧ (raise e s).useSrc = s.useSrc ∧
    (raise e s).onlyAbove5V = s.onlyAbove5V ∧ (raise e s).gpioCfg = s.gpioCfg ∧
    (raise e s).capCount = s.capCount ∧ (raise e s).rxHdr = s.rxHdr ∧ (raise e s).mem = s.mem ∧
    (raise e s).tStart = s.tStart ∧ (raise e s).selFound = s.selFound ∧ (raise e s).selBestP = s.selBestP ∧
    (raise e s).selBestIdx = s.selBestIdx ∧ (raise e s).selI = s.selI ∧ (raise e s).selWord = s.selWord ∧
    (raise e s).sect = s.sect ∧ (raise e s).curCmd = s.curCmd ∧ (raise e s).trace = s.trace ∧
    (raise e s).inputs = s.inputs ∧ (raise e s).ic = s.ic ∧ (raise e s).icScript = s.icScript ∧
    (raise e s).clkScript = s.clkScript ∧ (raise e s).draws = s.draws ∧ (raise e s).hostRdata = s.hostRdata :=
  ⟨rfl, rfl, rfl, rfl, rfl, rfl, rfl, rfl, rfl, rfl, rfl, rfl, rfl, rfl, rfl, rfl, rfl, rfl, rfl, rfl, rfl,
  rfl, rfl, rfl, rfl, rfl, rfl, rfl, rfl, rfl, rfl, rfl, rfl, rfl, rfl, rfl, rfl, rfl, rfl, rfl⟩

/-- R140: what `setFault` sets. -/
@[simp] theorem setFault_sets (s : State) :
    (setFault s).fault = true := rfl

/-- What `setFault` leaves. -/
@[simp] theorem setFault_keeps (s : State) :
    (setFault s).profile = s.profile ∧ (setFault s).err = s.err ∧ (setFault s).busy = s.busy ∧
    (setFault s).ok = s.ok ∧ (setFault s).seq = s.seq ∧ (setFault s).clkPresent = s.clkPresent ∧
    (setFault s).onInterrupt = s.onInterrupt ∧ (setFault s).arg0 = s.arg0 ∧ (setFault s).arg1 = s.arg1 ∧
    (setFault s).res0 = s.res0 ∧ (setFault s).res1 = s.res1 ∧ (setFault s).res2 = s.res2 ∧
    (setFault s).negMinI = s.negMinI ∧ (setFault s).negMinV = s.negMinV ∧
    (setFault s).negMaxV = s.negMaxV ∧ (setFault s).nvcPdo1I = s.nvcPdo1I ∧
    (setFault s).nvcPdo2V = s.nvcPdo2V ∧ (setFault s).nvcPdo2I = s.nvcPdo2I ∧
    (setFault s).nvcPdo3V = s.nvcPdo3V ∧ (setFault s).nvcPdo3I = s.nvcPdo3I ∧
    (setFault s).nvcFlexI = s.nvcFlexI ∧ (setFault s).numValid = s.numValid ∧
    (setFault s).useSrc = s.useSrc ∧ (setFault s).onlyAbove5V = s.onlyAbove5V ∧
    (setFault s).gpioCfg = s.gpioCfg ∧ (setFault s).capCount = s.capCount ∧ (setFault s).rxHdr = s.rxHdr ∧
    (setFault s).mem = s.mem ∧ (setFault s).mstep = s.mstep ∧ (setFault s).tStart = s.tStart ∧
    (setFault s).selFound = s.selFound ∧ (setFault s).selBestP = s.selBestP ∧
    (setFault s).selBestIdx = s.selBestIdx ∧ (setFault s).selI = s.selI ∧
    (setFault s).selWord = s.selWord ∧ (setFault s).sect = s.sect ∧ (setFault s).curCmd = s.curCmd ∧
    (setFault s).trace = s.trace ∧ (setFault s).inputs = s.inputs ∧ (setFault s).ic = s.ic ∧
    (setFault s).icScript = s.icScript ∧ (setFault s).clkScript = s.clkScript ∧
    (setFault s).draws = s.draws ∧ (setFault s).hostRdata = s.hostRdata :=
  ⟨rfl, rfl, rfl, rfl, rfl, rfl, rfl, rfl, rfl, rfl, rfl, rfl, rfl, rfl, rfl, rfl, rfl, rfl, rfl, rfl, rfl,
  rfl, rfl, rfl, rfl, rfl, rfl, rfl, rfl, rfl, rfl, rfl, rfl, rfl, rfl, rfl, rfl, rfl, rfl, rfl, rfl, rfl,
  rfl, rfl⟩

/-- R27, R29: what `afterBus` sets. -/
@[simp] theorem afterBus_sets (s : State) (req : BusReq) :
    (afterBus s req).trace = s.trace ++ [busEvent s req] ∧ (afterBus s req).ic = icAfter s req ∧
    (afterBus s req).icScript = scriptAfter s req :=
  ⟨rfl, rfl, rfl⟩

/-- What `afterBus` leaves. -/
@[simp] theorem afterBus_keeps (s : State) (req : BusReq) :
    (afterBus s req).profile = s.profile ∧ (afterBus s req).err = s.err ∧ (afterBus s req).busy = s.busy ∧
    (afterBus s req).ok = s.ok ∧ (afterBus s req).fault = s.fault ∧ (afterBus s req).seq = s.seq ∧
    (afterBus s req).clkPresent = s.clkPresent ∧ (afterBus s req).onInterrupt = s.onInterrupt ∧
    (afterBus s req).arg0 = s.arg0 ∧ (afterBus s req).arg1 = s.arg1 ∧ (afterBus s req).res0 = s.res0 ∧
    (afterBus s req).res1 = s.res1 ∧ (afterBus s req).res2 = s.res2 ∧
    (afterBus s req).negMinI = s.negMinI ∧ (afterBus s req).negMinV = s.negMinV ∧
    (afterBus s req).negMaxV = s.negMaxV ∧ (afterBus s req).nvcPdo1I = s.nvcPdo1I ∧
    (afterBus s req).nvcPdo2V = s.nvcPdo2V ∧ (afterBus s req).nvcPdo2I = s.nvcPdo2I ∧
    (afterBus s req).nvcPdo3V = s.nvcPdo3V ∧ (afterBus s req).nvcPdo3I = s.nvcPdo3I ∧
    (afterBus s req).nvcFlexI = s.nvcFlexI ∧ (afterBus s req).numValid = s.numValid ∧
    (afterBus s req).useSrc = s.useSrc ∧ (afterBus s req).onlyAbove5V = s.onlyAbove5V ∧
    (afterBus s req).gpioCfg = s.gpioCfg ∧ (afterBus s req).capCount = s.capCount ∧
    (afterBus s req).rxHdr = s.rxHdr ∧ (afterBus s req).mem = s.mem ∧ (afterBus s req).mstep = s.mstep ∧
    (afterBus s req).tStart = s.tStart ∧ (afterBus s req).selFound = s.selFound ∧
    (afterBus s req).selBestP = s.selBestP ∧ (afterBus s req).selBestIdx = s.selBestIdx ∧
    (afterBus s req).selI = s.selI ∧ (afterBus s req).selWord = s.selWord ∧
    (afterBus s req).sect = s.sect ∧ (afterBus s req).curCmd = s.curCmd ∧
    (afterBus s req).inputs = s.inputs ∧ (afterBus s req).clkScript = s.clkScript ∧
    (afterBus s req).draws = s.draws ∧ (afterBus s req).hostRdata = s.hostRdata :=
  ⟨rfl, rfl, rfl, rfl, rfl, rfl, rfl, rfl, rfl, rfl, rfl, rfl, rfl, rfl, rfl, rfl, rfl, rfl, rfl, rfl, rfl,
  rfl, rfl, rfl, rfl, rfl, rfl, rfl, rfl, rfl, rfl, rfl, rfl, rfl, rfl, rfl, rfl, rfl, rfl, rfl, rfl, rfl⟩

/-- R22, R74: what `keepSelection` sets. -/
@[simp] theorem keepSelection_sets (sel : Selection) (s : State) :
    (keepSelection sel s).selFound = sel.found ∧ (keepSelection sel s).selBestP = sel.bestP ∧
    (keepSelection sel s).selBestIdx = sel.bestIdx ∧ (keepSelection sel s).selI = sel.i :=
  ⟨rfl, rfl, rfl, rfl⟩

/-- What `keepSelection` leaves. -/
@[simp] theorem keepSelection_keeps (sel : Selection) (s : State) :
    (keepSelection sel s).profile = s.profile ∧ (keepSelection sel s).err = s.err ∧
    (keepSelection sel s).busy = s.busy ∧ (keepSelection sel s).ok = s.ok ∧
    (keepSelection sel s).fault = s.fault ∧ (keepSelection sel s).seq = s.seq ∧
    (keepSelection sel s).clkPresent = s.clkPresent ∧ (keepSelection sel s).onInterrupt = s.onInterrupt ∧
    (keepSelection sel s).arg0 = s.arg0 ∧ (keepSelection sel s).arg1 = s.arg1 ∧
    (keepSelection sel s).res0 = s.res0 ∧ (keepSelection sel s).res1 = s.res1 ∧
    (keepSelection sel s).res2 = s.res2 ∧ (keepSelection sel s).negMinI = s.negMinI ∧
    (keepSelection sel s).negMinV = s.negMinV ∧ (keepSelection sel s).negMaxV = s.negMaxV ∧
    (keepSelection sel s).nvcPdo1I = s.nvcPdo1I ∧ (keepSelection sel s).nvcPdo2V = s.nvcPdo2V ∧
    (keepSelection sel s).nvcPdo2I = s.nvcPdo2I ∧ (keepSelection sel s).nvcPdo3V = s.nvcPdo3V ∧
    (keepSelection sel s).nvcPdo3I = s.nvcPdo3I ∧ (keepSelection sel s).nvcFlexI = s.nvcFlexI ∧
    (keepSelection sel s).numValid = s.numValid ∧ (keepSelection sel s).useSrc = s.useSrc ∧
    (keepSelection sel s).onlyAbove5V = s.onlyAbove5V ∧ (keepSelection sel s).gpioCfg = s.gpioCfg ∧
    (keepSelection sel s).capCount = s.capCount ∧ (keepSelection sel s).rxHdr = s.rxHdr ∧
    (keepSelection sel s).mem = s.mem ∧ (keepSelection sel s).mstep = s.mstep ∧
    (keepSelection sel s).tStart = s.tStart ∧ (keepSelection sel s).selWord = s.selWord ∧
    (keepSelection sel s).sect = s.sect ∧ (keepSelection sel s).curCmd = s.curCmd ∧
    (keepSelection sel s).trace = s.trace ∧ (keepSelection sel s).inputs = s.inputs ∧
    (keepSelection sel s).ic = s.ic ∧ (keepSelection sel s).icScript = s.icScript ∧
    (keepSelection sel s).clkScript = s.clkScript ∧ (keepSelection sel s).draws = s.draws ∧
    (keepSelection sel s).hostRdata = s.hostRdata :=
  ⟨rfl, rfl, rfl, rfl, rfl, rfl, rfl, rfl, rfl, rfl, rfl, rfl, rfl, rfl, rfl, rfl, rfl, rfl, rfl, rfl, rfl,
  rfl, rfl, rfl, rfl, rfl, rfl, rfl, rfl, rfl, rfl, rfl, rfl, rfl, rfl, rfl, rfl, rfl, rfl, rfl, rfl⟩

/-- R33, R121: what `storeSect` sets. -/
@[simp] theorem storeSect_sets (base : Nat) (bytes : List Byte) (s : State) :
    (storeSect base bytes s).mem = Memory.setBytes s.mem (base + 8 * s.sect.toNat) bytes := rfl

/-- What `storeSect` leaves. -/
@[simp] theorem storeSect_keeps (base : Nat) (bytes : List Byte) (s : State) :
    (storeSect base bytes s).profile = s.profile ∧ (storeSect base bytes s).err = s.err ∧
    (storeSect base bytes s).busy = s.busy ∧ (storeSect base bytes s).ok = s.ok ∧
    (storeSect base bytes s).fault = s.fault ∧ (storeSect base bytes s).seq = s.seq ∧
    (storeSect base bytes s).clkPresent = s.clkPresent ∧
    (storeSect base bytes s).onInterrupt = s.onInterrupt ∧ (storeSect base bytes s).arg0 = s.arg0 ∧
    (storeSect base bytes s).arg1 = s.arg1 ∧ (storeSect base bytes s).res0 = s.res0 ∧
    (storeSect base bytes s).res1 = s.res1 ∧ (storeSect base bytes s).res2 = s.res2 ∧
    (storeSect base bytes s).negMinI = s.negMinI ∧ (storeSect base bytes s).negMinV = s.negMinV ∧
    (storeSect base bytes s).negMaxV = s.negMaxV ∧ (storeSect base bytes s).nvcPdo1I = s.nvcPdo1I ∧
    (storeSect base bytes s).nvcPdo2V = s.nvcPdo2V ∧ (storeSect base bytes s).nvcPdo2I = s.nvcPdo2I ∧
    (storeSect base bytes s).nvcPdo3V = s.nvcPdo3V ∧ (storeSect base bytes s).nvcPdo3I = s.nvcPdo3I ∧
    (storeSect base bytes s).nvcFlexI = s.nvcFlexI ∧ (storeSect base bytes s).numValid = s.numValid ∧
    (storeSect base bytes s).useSrc = s.useSrc ∧ (storeSect base bytes s).onlyAbove5V = s.onlyAbove5V ∧
    (storeSect base bytes s).gpioCfg = s.gpioCfg ∧ (storeSect base bytes s).capCount = s.capCount ∧
    (storeSect base bytes s).rxHdr = s.rxHdr ∧ (storeSect base bytes s).mstep = s.mstep ∧
    (storeSect base bytes s).tStart = s.tStart ∧ (storeSect base bytes s).selFound = s.selFound ∧
    (storeSect base bytes s).selBestP = s.selBestP ∧ (storeSect base bytes s).selBestIdx = s.selBestIdx ∧
    (storeSect base bytes s).selI = s.selI ∧ (storeSect base bytes s).selWord = s.selWord ∧
    (storeSect base bytes s).sect = s.sect ∧ (storeSect base bytes s).curCmd = s.curCmd ∧
    (storeSect base bytes s).trace = s.trace ∧ (storeSect base bytes s).inputs = s.inputs ∧
    (storeSect base bytes s).ic = s.ic ∧ (storeSect base bytes s).icScript = s.icScript ∧
    (storeSect base bytes s).clkScript = s.clkScript ∧ (storeSect base bytes s).draws = s.draws ∧
    (storeSect base bytes s).hostRdata = s.hostRdata :=
  ⟨rfl, rfl, rfl, rfl, rfl, rfl, rfl, rfl, rfl, rfl, rfl, rfl, rfl, rfl, rfl, rfl, rfl, rfl, rfl, rfl, rfl,
  rfl, rfl, rfl, rfl, rfl, rfl, rfl, rfl, rfl, rfl, rfl, rfl, rfl, rfl, rfl, rfl, rfl, rfl, rfl, rfl, rfl,
  rfl, rfl⟩

/-- What `afterNow` leaves. -/
@[simp] theorem afterNow_keeps (s : State) :
    (afterNow s).profile = s.profile ∧ (afterNow s).err = s.err ∧ (afterNow s).busy = s.busy ∧
    (afterNow s).ok = s.ok ∧ (afterNow s).fault = s.fault ∧ (afterNow s).seq = s.seq ∧
    (afterNow s).clkPresent = s.clkPresent ∧ (afterNow s).onInterrupt = s.onInterrupt ∧
    (afterNow s).arg0 = s.arg0 ∧ (afterNow s).arg1 = s.arg1 ∧ (afterNow s).res0 = s.res0 ∧
    (afterNow s).res1 = s.res1 ∧ (afterNow s).res2 = s.res2 ∧ (afterNow s).negMinI = s.negMinI ∧
    (afterNow s).negMinV = s.negMinV ∧ (afterNow s).negMaxV = s.negMaxV ∧
    (afterNow s).nvcPdo1I = s.nvcPdo1I ∧ (afterNow s).nvcPdo2V = s.nvcPdo2V ∧
    (afterNow s).nvcPdo2I = s.nvcPdo2I ∧ (afterNow s).nvcPdo3V = s.nvcPdo3V ∧
    (afterNow s).nvcPdo3I = s.nvcPdo3I ∧ (afterNow s).nvcFlexI = s.nvcFlexI ∧
    (afterNow s).numValid = s.numValid ∧ (afterNow s).useSrc = s.useSrc ∧
    (afterNow s).onlyAbove5V = s.onlyAbove5V ∧ (afterNow s).gpioCfg = s.gpioCfg ∧
    (afterNow s).capCount = s.capCount ∧ (afterNow s).rxHdr = s.rxHdr ∧ (afterNow s).mem = s.mem ∧
    (afterNow s).mstep = s.mstep ∧ (afterNow s).tStart = s.tStart ∧ (afterNow s).selFound = s.selFound ∧
    (afterNow s).selBestP = s.selBestP ∧ (afterNow s).selBestIdx = s.selBestIdx ∧
    (afterNow s).selI = s.selI ∧ (afterNow s).selWord = s.selWord ∧ (afterNow s).sect = s.sect ∧
    (afterNow s).curCmd = s.curCmd ∧ (afterNow s).trace = s.trace ∧ (afterNow s).inputs = s.inputs ∧
    (afterNow s).ic = s.ic ∧ (afterNow s).icScript = s.icScript ∧ (afterNow s).hostRdata = s.hostRdata := by
  unfold afterNow
  split <;> simp

/-- R78: what `sampleStart` sets. -/
@[simp] theorem sampleStart_sets (s : State) :
    (sampleStart s).tStart = clockNow s := rfl

/-- What `sampleStart` leaves. -/
@[simp] theorem sampleStart_keeps (s : State) :
    (sampleStart s).profile = s.profile ∧ (sampleStart s).err = s.err ∧ (sampleStart s).busy = s.busy ∧
    (sampleStart s).ok = s.ok ∧ (sampleStart s).fault = s.fault ∧ (sampleStart s).seq = s.seq ∧
    (sampleStart s).clkPresent = s.clkPresent ∧ (sampleStart s).onInterrupt = s.onInterrupt ∧
    (sampleStart s).arg0 = s.arg0 ∧ (sampleStart s).arg1 = s.arg1 ∧ (sampleStart s).res0 = s.res0 ∧
    (sampleStart s).res1 = s.res1 ∧ (sampleStart s).res2 = s.res2 ∧ (sampleStart s).negMinI = s.negMinI ∧
    (sampleStart s).negMinV = s.negMinV ∧ (sampleStart s).negMaxV = s.negMaxV ∧
    (sampleStart s).nvcPdo1I = s.nvcPdo1I ∧ (sampleStart s).nvcPdo2V = s.nvcPdo2V ∧
    (sampleStart s).nvcPdo2I = s.nvcPdo2I ∧ (sampleStart s).nvcPdo3V = s.nvcPdo3V ∧
    (sampleStart s).nvcPdo3I = s.nvcPdo3I ∧ (sampleStart s).nvcFlexI = s.nvcFlexI ∧
    (sampleStart s).numValid = s.numValid ∧ (sampleStart s).useSrc = s.useSrc ∧
    (sampleStart s).onlyAbove5V = s.onlyAbove5V ∧ (sampleStart s).gpioCfg = s.gpioCfg ∧
    (sampleStart s).capCount = s.capCount ∧ (sampleStart s).rxHdr = s.rxHdr ∧ (sampleStart s).mem = s.mem ∧
    (sampleStart s).mstep = s.mstep ∧ (sampleStart s).selFound = s.selFound ∧
    (sampleStart s).selBestP = s.selBestP ∧ (sampleStart s).selBestIdx = s.selBestIdx ∧
    (sampleStart s).selI = s.selI ∧ (sampleStart s).selWord = s.selWord ∧ (sampleStart s).sect = s.sect ∧
    (sampleStart s).curCmd = s.curCmd ∧ (sampleStart s).trace = s.trace ∧
    (sampleStart s).inputs = s.inputs ∧ (sampleStart s).ic = s.ic ∧ (sampleStart s).icScript = s.icScript ∧
    (sampleStart s).hostRdata = s.hostRdata := by
  simp [sampleStart]

/-- What `pollStart` leaves. -/
@[simp] theorem pollStart_keeps (budget : Option Nat) (s : State) :
    (pollStart budget s).profile = s.profile ∧ (pollStart budget s).err = s.err ∧
    (pollStart budget s).busy = s.busy ∧ (pollStart budget s).ok = s.ok ∧
    (pollStart budget s).fault = s.fault ∧ (pollStart budget s).seq = s.seq ∧
    (pollStart budget s).clkPresent = s.clkPresent ∧ (pollStart budget s).onInterrupt = s.onInterrupt ∧
    (pollStart budget s).arg0 = s.arg0 ∧ (pollStart budget s).arg1 = s.arg1 ∧
    (pollStart budget s).res0 = s.res0 ∧ (pollStart budget s).res1 = s.res1 ∧
    (pollStart budget s).res2 = s.res2 ∧ (pollStart budget s).negMinI = s.negMinI ∧
    (pollStart budget s).negMinV = s.negMinV ∧ (pollStart budget s).negMaxV = s.negMaxV ∧
    (pollStart budget s).nvcPdo1I = s.nvcPdo1I ∧ (pollStart budget s).nvcPdo2V = s.nvcPdo2V ∧
    (pollStart budget s).nvcPdo2I = s.nvcPdo2I ∧ (pollStart budget s).nvcPdo3V = s.nvcPdo3V ∧
    (pollStart budget s).nvcPdo3I = s.nvcPdo3I ∧ (pollStart budget s).nvcFlexI = s.nvcFlexI ∧
    (pollStart budget s).numValid = s.numValid ∧ (pollStart budget s).useSrc = s.useSrc ∧
    (pollStart budget s).onlyAbove5V = s.onlyAbove5V ∧ (pollStart budget s).gpioCfg = s.gpioCfg ∧
    (pollStart budget s).capCount = s.capCount ∧ (pollStart budget s).rxHdr = s.rxHdr ∧
    (pollStart budget s).mem = s.mem ∧ (pollStart budget s).mstep = s.mstep ∧
    (pollStart budget s).selFound = s.selFound ∧ (pollStart budget s).selBestP = s.selBestP ∧
    (pollStart budget s).selBestIdx = s.selBestIdx ∧ (pollStart budget s).selI = s.selI ∧
    (pollStart budget s).selWord = s.selWord ∧ (pollStart budget s).sect = s.sect ∧
    (pollStart budget s).curCmd = s.curCmd ∧ (pollStart budget s).trace = s.trace ∧
    (pollStart budget s).inputs = s.inputs ∧ (pollStart budget s).ic = s.ic ∧
    (pollStart budget s).icScript = s.icScript ∧ (pollStart budget s).hostRdata = s.hostRdata := by
  unfold pollStart
  split <;> simp

end Sys2Proof.Machine
end

