-- ==== Sys2Proof/Laws/Step.lean ====
section
/-!
SUPPORT. What one step is, by the next input (R13, R25, R56, log 6): the lemmas the proofs about `step` cite instead
of unfolding it.
-/

namespace Sys2Proof.Machine

/-- The next input lands. -/
theorem step_input {s : State} {i : Input} {rest : List Input} (hl : s.profile.legal = true)
    (hi : s.inputs = i :: rest) : step s = takeInput i { s with inputs := rest } := by
  unfold step systemStep
  rw [if_neg (by simp [hl]), hi]

/-- With no input the block steps. -/
theorem step_noInput {s : State} (hl : s.profile.legal = true) (hi : s.inputs = []) : step s = blockStep s := by
  unfold step systemStep
  rw [if_neg (by simp [hl]), hi]

/-- R94: no step under an illegal profile. -/
theorem step_illegalProfile {s : State} (hl : s.profile.legal = false) :
    step s = .refused .illegalProfile := by
  unfold step systemStep
  rw [if_pos hl]

theorem hostWrites_eq {s : State} (idx : Byte) (v : U32) (hl : s.profile.legal = true) :
    hostWrites idx v s = hostWrite idx v s := by
  unfold hostWrites
  rw [step_input (i := .hostWrite idx v) (rest := s.inputs) (by exact hl) rfl]
  rfl

theorem hostReads_eq {s : State} (idx : Byte) (hl : s.profile.legal = true) :
    hostReads idx s = .next (hostRead idx s) := by
  unfold hostReads
  rw [step_input (i := .hostRead idx) (rest := s.inputs) (by exact hl) rfl]
  rfl

/-- R25: a host write at a busy block. -/
theorem hostWrite_busy {s : State} (idx : Byte) (v : U32) (hb : s.busy = true) :
    hostWrite idx v s = .next (setFault s) := by
  unfold hostWrite
  rw [if_pos hb]

/-- R56: a host write of `CMD` at a block that is not busy. -/
theorem hostWrite_command {s : State} {v : U32} {i : Instr} (hb : s.busy = false)
    (hd : decode [commandByte v] = .ok (i, [])) : hostWrite 0x00#8 v s = exec i s := by
  unfold hostWrite
  rw [if_neg (by simp [hb]), if_pos (by rfl)]
  unfold commandWrite
  rw [hd]

/-- R15: a host write of another register. -/
theorem hostWrite_register {s : State} {idx : Byte} (v : U32) (hb : s.busy = false) (hi : idx ≠ 0x00#8) :
    hostWrite idx v s = .next (writeRegister idx v s) := by
  unfold hostWrite
  rw [if_neg (by simp [hb]), if_neg hi]

/-- A block that is faulted or not busy takes no step of its own (log 12). -/
theorem blockStep_quiescent {s : State} (h : s.busy = false ∨ s.fault = true) : blockStep s = .next s := by
  unfold blockStep
  split
  · rfl
  · split
    · rfl
    · rename_i h1 h2
      rcases h with h | h
      · exact absurd h h2
      · exact absurd h h1

/-- A command in progress takes its next micro-step. -/
theorem blockStep_busy {s : State} {i : Instr} (hf : s.fault = false) (hb : s.busy = true)
    (ho : decodeOpc s.curCmd = some i) : blockStep s = exec i s := by
  unfold blockStep
  rw [if_neg (by simp [hf]), if_neg (by simp [hb]), ho]

/-- R53: `CUR_CMD` decodes to the command that wrote it. -/
theorem decodeOpc_opcodeOf {i : Instr} {opc : BitVec 4} (h : opcodeOf i = some opc) :
    decodeOpc opc = some i := by
  cases i <;> simp [opcodeOf] at h <;> subst h <;> rfl

end Sys2Proof.Machine
end

