-- ==== Sys2Proof/Tests/Slice0.lean ====
section
/-!
SUPPORT. The model's own tests: what the checks refuse, the words of the opcode map, one micro-step per command
from the vectors of spec/95_test_vectors.md, and for each statement with hypotheses a state that meets them.
-/

namespace Sys2Proof.Tests

open Sys2Proof.Machine

/-! ## States the tests are about -/

/-- A command in progress, right after reset, with the IC's next answers. -/
def running (opc : BitVec 4) (st : SeqState) (k : BitVec 8) (script : List IcAnswer) : State :=
  { State.reset with busy := true, curCmd := opc, seq := st, mstep := k, icScript := script }

/-- `running`, with a clock whose next sample is `now` and a poll that started at 300. -/
def polling (opc : BitVec 4) (st : SeqState) (k : BitVec 8) (script : List IcAnswer) (now : U32) : State :=
  { running opc st k script with clkPresent := true, clkScript := [now], tStart := 300#32 }

/-- The profile of R6 with a bounded NVM poll. -/
def boundedProfile : DeviceProfile := { defaultProfile with nvmAckBudgetMs := some 100 }

/-- A profile that R43 rules out. -/
def badProfile : DeviceProfile := { defaultProfile with pdoTypeLsb := 31 }

/-- The capture of L1-2: 5 V 3 A, 9 V 2 A, 15 V 3 A. -/
def captured : Memory :=
  [(0x20, 0x2C#8), (0x21, 0x91#8), (0x22, 0x01#8), (0x23, 0x00#8), (0x24, 0xC8#8), (0x25, 0xD0#8),
    (0x26, 0x02#8), (0x27, 0x00#8), (0x28, 0x2C#8), (0x29, 0xB1#8), (0x2A, 0x04#8), (0x2B, 0x00#8)]

/-- The words of L1-2. -/
def capturedWords (i : Nat) : U32 :=
  if i = 0 then 0x0001912C#32 else if i = 1 then 0x0002D0C8#32 else 0x0004B12C#32

/-- The operands of L1-2 (`top` 12000) and L1-3 (`top` 4000). -/
def selecting (opc : BitVec 4) (st : SeqState) (top : U16) : State :=
  { running opc st 0#8 [] with
    mem := captured, capCount := some 3#8, negMinI := some 1500#16, negMinV := some 5000#16,
    negMaxV := some top }

/-- The configuration `K` of L1-5. -/
def cfgK : NvmConfig :=
  { pdo1I := 1500#16, pdo2V := 9000#16, pdo2I := 3000#16, pdo3V := 20000#16, pdo3I := 2000#16,
    flexI := 2000#16, numValid := 3#2, useSrc := true, onlyAbove5V := false, gpioCfg := 0#2 }

/-- Write a configuration to the `NVC_*` registers. -/
def withConfig (c : NvmConfig) (s : State) : State :=
  { s with
    nvcPdo1I := some c.pdo1I, nvcPdo2V := some c.pdo2V, nvcPdo2I := some c.pdo2I, nvcPdo3V := some c.pdo3V,
    nvcPdo3I := some c.pdo3I, nvcFlexI := some c.flexI, numValid := some c.numValid, useSrc := some c.useSrc,
    onlyAbove5V := some c.onlyAbove5V, gpioCfg := some c.gpioCfg }

/-- An image of forty equal bytes. -/
def flat (b : Byte) : Image := Vector.replicate 40 b

/-- The status byte (R16) of a next state. -/
def statusAfter (o : Out) : Option Byte :=
  match o with
  | .next t => some (statusByte t)
  | .fault _ => none
  | .refused _ => none

/-- The three results of a next state. -/
def resultsAfter (o : Out) : Option (U32 × U32 × U32) :=
  match o with
  | .next t => some (t.res0, t.res1, t.res2)
  | .fault _ => none
  | .refused _ => none

/-- The position and status byte of a next state. -/
def placeAfter (o : Out) : Option (SeqState × BitVec 8 × Byte) :=
  match o with
  | .next t => some (t.seq, t.mstep, statusByte t)
  | .fault _ => none
  | .refused _ => none

/-! ## What the checks refuse -/

/-- R54: `illegalOpc` may not carry a word of the opcode map. -/
theorem test_illegalOpc_of_a_command_is_ill_formed :
    (Instr.illegalOpc 0x01#8).wf = false ∧ (Instr.illegalOpc 0x0A#8).wf = false := by decide

/-- R54: each condition of the illegal space alone: `RSV`, `OPC = 0`, `OPC` above 0xA. -/
theorem test_illegal_space_is_well_formed :
    (Instr.illegalOpc 0x11#8).wf = true ∧ (Instr.illegalOpc 0x00#8).wf = true ∧
    (Instr.illegalOpc 0x0B#8).wf = true := by decide

theorem test_default_profile_is_legal : defaultProfile.legal = true := by decide

/-- R43: the range of `PDO_TYPE_LSB`. -/
theorem test_profile_R43 : badProfile.legal = false ∧ { defaultProfile with pdoTypeLsb := 19 }.legal = false := by
  decide

/-- R46: the ranges of `MSG_TYPE_BITS` and `HDR_COUNT_LSB`. -/
theorem test_profile_R46 :
    { defaultProfile with msgTypeBits := 3 }.legal = false ∧
    { defaultProfile with hdrCountLsb := 4 }.legal = false ∧
    { defaultProfile with hdrCountLsb := 14 }.legal = false := by decide

/-- R94 (a): a byte field past bit 7. -/
theorem test_profile_R94a : { refMap with pdo2Current := 5 }.legal = false := by decide

/-- R94 (b): a window field that starts past bit 7, and one that ends past bit 15. -/
theorem test_profile_R94b :
    { refMap with pdo2Voltage := 8 }.legal = false ∧ { refMap with flexFallbackCurrent := 7 }.legal = false := by
  decide

/-- R94 (c): `GPIO_CFG` is at bit 4. -/
theorem test_profile_R94c : { refMap with gpioCfg := 5 }.legal = false := by decide

/-- R94 (d): two fields that share a bit. -/
theorem test_profile_R94d : { refMap with useSrcCurrent := 3 }.legal = false := by decide

/-! ## Decoding, from the words of R53 and R54 -/

theorem test_decode_pdoDecode : decodeTableWord 8 0b00000001 = some .pdoDecode := by decide
theorem test_decode_pdoEncode : decodeTableWord 8 0b00000010 = some .pdoEncode := by decide
theorem test_decode_pdoPower : decodeTableWord 8 0b00000011 = some .pdoPower := by decide
theorem test_decode_hdrClassify : decodeTableWord 8 0b00000100 = some .hdrClassify := by decide
theorem test_decode_pdoSelect : decodeTableWord 8 0b00000101 = some .pdoSelect := by decide
theorem test_decode_presence : decodeTableWord 8 0b00000110 = some .presence := by decide
theorem test_decode_negotiate : decodeTableWord 8 0b00000111 = some .negotiate := by decide
theorem test_decode_nvmRead : decodeTableWord 8 0b00001000 = some .nvmRead := by decide
theorem test_decode_nvmPatch : decodeTableWord 8 0b00001001 = some .nvmPatch := by decide
theorem test_decode_nvmFlash : decodeTableWord 8 0b00001010 = some .nvmFlash := by decide
theorem test_decode_illegalOpc :
    decodeTableWord 8 0b00000000 = some (.illegalOpc 0x00#8) ∧
    decodeTableWord 8 0b00001011 = some (.illegalOpc 0x0B#8) ∧
    decodeTableWord 8 0b11111111 = some (.illegalOpc 0xFF#8) := by decide

/-! ## One micro-step per command, expected values from 95_test_vectors.md -/

/-- L2-C-1: 0x0A01912C, bits 29:20 ignored. -/
theorem test_pdoDecode_ignores_high_bits :
    resultsAfter (exec .pdoDecode { running 1#4 .exec 0#8 [] with arg0 := some 0x0A01912C#32 }) =
      some (3000#32, 5000#32, 0#32) := by decide

/-- L2-C-1: 0xC001912C, type 3. -/
theorem test_pdoDecode_type :
    resultsAfter (exec .pdoDecode { running 1#4 .exec 0#8 [] with arg0 := some 0xC001912C#32 }) =
      some (3000#32, 5000#32, 3#32) := by decide

/-- L2-C-2: the quotients wrap at ten bits. -/
theorem test_pdoEncode_wraps :
    resultsAfter (exec .pdoEncode
      { running 2#4 .exec 0#8 [] with arg0 := some 65535#32, arg1 := some 65535#32 }) =
      some (0x00047999#32, 0#32, 0#32) := by decide

/-- L2-C-2: the upper halves are ignored. -/
theorem test_pdoEncode_ignores_upper_halves :
    resultsAfter (exec .pdoEncode
      { running 2#4 .exec 0#8 [] with arg0 := some 0x12340BB8#32, arg1 := some 0xFFFF1388#32 }) =
      some (0x0001912C#32, 0#32, 0#32) := by decide

/-- L2-C-3: the largest product. -/
theorem test_pdoPower_largest :
    resultsAfter (exec .pdoPower
      { running 3#4 .exec 0#8 [] with arg0 := some 65535#32, arg1 := some 65535#32 }) =
      some (4294836#32, 0#32, 0#32) := by decide

/-- L1-4: object count 0 is no capabilities header. -/
theorem test_hdrClassify_count_zero :
    resultsAfter (exec .hdrClassify { running 4#4 .exec 0#8 [] with arg0 := some 0x0041#32 }) =
      some (0#32, 1#32, 0#32) := by decide

/-- L1-2: 9 V 2 A wins. -/
theorem test_pdoSelect_picks_most_power :
    resultsAfter (exec .pdoSelect (selecting 5#4 .exec 12000#16)) =
      some (0x0002D0C8#32, 18000#32, 1#32) := by decide

/-- L1-3: no voltage qualifies. -/
theorem test_pdoSelect_no_match :
    placeAfter (exec .pdoSelect (selecting 5#4 .exec 4000#16)) = some (.failed, 0#8, 0x07#8) := by decide

/-- R74, R137, L1-3: a failed selection leaves `SEL_FOUND` 0 and the baseline, 1500 mA at 5000 mV. -/
theorem test_pdoSelect_no_match_registers :
    ∃ t : State, exec .pdoSelect { selecting 5#4 .exec 4000#16 with selFound := true } = .next t ∧
      t.selFound = false ∧ t.selBestP = 7500#32 := ⟨_, rfl, by decide⟩

/-- R81: an ID in the set, and one outside it. -/
theorem test_presence_id :
    placeAfter (exec .presence (running 6#4 .presence 0#8 [.ok [0x25#8]])) = some (.done, 0#8, 0x20#8) ∧
    placeAfter (exec .presence (running 6#4 .presence 0#8 [.ok [0x00#8]])) = some (.failed, 0#8, 0x02#8) := by
  decide

/-- C5: a bus failure in PRESENCE is `NotPresent`. -/
theorem test_presence_bus_failure :
    placeAfter (exec .presence (running 6#4 .presence 0#8 [.fail])) = some (.failed, 0#8, 0x02#8) := by decide

/-- L1-7: at 801 the elapsed 501 ms exceed 500, at 800 they do not. -/
theorem test_negotiate_timeout_boundary :
    placeAfter (exec .negotiate (polling 7#4 .waitCaps 4#8 [] 801#32)) = some (.failed, 0#8, 0x03#8) ∧
    placeAfter (exec .negotiate (polling 7#4 .waitCaps 4#8 [] 800#32)) = some (.waitCaps, 1#8, 0x10#8) := by
  decide

/-- R87 W3: a byte count that is not `4 * n`. -/
theorem test_negotiate_payload_size :
    placeAfter (exec .negotiate
      { running 7#4 .waitCaps 3#8 [.ok [0x08#8]] with rxHdr := some 0x3161#16 }) =
      some (.failed, 0#8, 0x06#8) := by decide

/-- R118: the request bit set keeps the poll; clear moves on. -/
theorem test_nvmRead_ack_poll :
    placeAfter (exec .nvmRead (running 8#4 .nvmReadImage 7#8 [.ok [0x10#8]])) =
      some (.nvmReadImage, 7#8, 0x10#8) ∧
    placeAfter (exec .nvmRead (running 8#4 .nvmReadImage 7#8 [.ok [0xEF#8]])) =
      some (.nvmReadImage, 8#8, 0x10#8) := by decide

/-- L2-P-3, row FF, sector 3: bytes 26, 28 and 29 of the pre-image 0xFF under `K`. -/
theorem test_patch_sector3 :
    let r := applyConfig defaultProfile cfgK (flat 0xFF#8)
    (r[8], r[26], r[28], r[29]) = (0xCF#8, 0x5F#8, 0xFB#8, 0x7F#8) := by decide

/-- R98: `NUM_VALID = 0` is `InvalidConfig`. -/
theorem test_nvmFlash_validates :
    statusAfter (exec .nvmFlash (withConfig { cfgK with numValid := 0#2 } State.reset)) = some 0x09#8 := by decide

/-- R56, R98, R140: the status after the issue with `NVC_*` unwritten: `FAULT` and `BUSY`. -/
theorem test_nvmFlash_faults : statusAfter (exec .nvmFlash State.reset) = some 0x90#8 := by decide

/-- L1-6: the issue of NVM_FLASH. -/
theorem test_nvmFlash_issue :
    placeAfter (exec .nvmFlash (withConfig cfgK State.reset)) = some (.nvmReadImage, 0#8, 0x10#8) := by decide

/-- R138: the status after an illegal word. -/
theorem test_illegalOpc_status :
    placeAfter (step (State.reset.withFetchWord 8 0x0B)) = some (.failed, 0#8, 0x0A#8) := by decide

/-! ## Witnesses: states that meet the hypotheses of the statements -/

theorem running_inProgress (opc : BitVec 4) (st : SeqState) (k : BitVec 8) (script : List IcAnswer) :
    InProgress opc st (running opc st k script) := ⟨test_default_profile_is_legal, rfl, rfl, rfl, rfl⟩

theorem polling_inProgress (opc : BitVec 4) (st : SeqState) (k : BitVec 8) (script : List IcAnswer) (now : U32) :
    InProgress opc st (polling opc st k script now) := ⟨test_default_profile_is_legal, rfl, rfl, rfl, rfl⟩

theorem reset_issuable : Issuable State.reset := ⟨test_default_profile_is_legal, rfl, rfl⟩

/-- The IC's answers in a `running` state: a scripted failure, a scripted read, a scripted write. -/
theorem running_fails (opc : BitVec 4) (st : SeqState) (k : BitVec 8) (rest : List IcAnswer) (req : BusReq) :
    icAnswer (running opc st k (.fail :: rest)) req = .fail := rfl

theorem running_reads (opc : BitVec 4) (st : SeqState) (k : BitVec 8) (bytes : List Byte)
    (rest : List IcAnswer) (reg : Byte) :
    icAnswer (running opc st k (.ok bytes :: rest)) (.read reg bytes.length) = .ok bytes :=
  icAnswer_scripted_read rfl rfl rfl

theorem running_writes (opc : BitVec 4) (st : SeqState) (k : BitVec 8) (rest : List IcAnswer) (reg : Byte)
    (w : List Byte) : icAnswer (running opc st k (acked :: rest)) (.write reg w) = .ok [] :=
  icAnswer_scripted_write rfl rfl

/-- The same for one byte read in a `polling` state. -/
theorem polling_reads (opc : BitVec 4) (st : SeqState) (k : BitVec 8) (b : Byte) (now : U32) (reg : Byte) :
    icAnswer (polling opc st k [.ok [b]] now) (.read reg 1) = .ok [b] := icAnswer_scripted_read rfl rfl rfl

/-- The time since the poll's start at the read's next sample: 501 at 801, 500 at 800. -/
theorem polling_elapsed (opc : BitVec 4) (st : SeqState) (k : BitVec 8) (b : Byte) (req : BusReq) :
    (clockNow (afterBus (polling opc st k [.ok [b]] 801#32) req) -
      (polling opc st k [.ok [b]] 801#32).tStart).toNat = 501 ∧
    (clockNow (afterBus (polling opc st k [.ok [b]] 800#32) req) -
      (polling opc st k [.ok [b]] 800#32).tStart).toNat = 500 := by
  show (801#32 - 300#32).toNat = 501 ∧ (800#32 - 300#32).toNat = 500
  decide

/-- A byte with the request bit clear. -/
theorem zero_acks (p : DeviceProfile) : 0#8 &&& p.ctrl0Req = 0#8 := BitVec.zero_and

theorem witness_DecodeOfEncode : (Instr.nvmFlash).wf = true ∧ (Instr.illegalOpc 0x00#8).wf = true ∧
    (Instr.illegalOpc 0x0B#8).wf = true ∧ (Instr.illegalOpc 0xFF#8).wf = true := by decide

theorem decode_of {w : Byte} {i : Instr} (h : decodeByte w = i) : decode [w] = .ok (i, []) := by
  rw [← h]
  rfl

theorem witness_CmdWriteRunsTheDecodedCommand :
    ∃ (s : State) (v : U32) (rest : List Input) (i : Instr) (w : Nat) (j : Instr),
      s.profile.legal = true ∧ s.busy = false ∧ s.inputs = .hostWrite 0x00#8 v :: rest ∧
      decode [v.extractLsb' 0 8] = .ok (i, []) ∧ decodeTableWord 8 w = some j :=
  ⟨{ State.reset with inputs := [.hostWrite 0x00#8 0xFFFFFF0A#32] }, 0xFFFFFF0A#32, [], .nvmFlash, 0x06, .presence,
    test_default_profile_is_legal, rfl, rfl, decode_of (by decide), by decide⟩

theorem witness_BusyBlockStepsItsCommand :
    ∃ s t : State, InProgress 7#4 .sendSoftReset s ∧ opcodeOf .negotiate = some s.curCmd ∧ s.inputs = [] ∧
      t.profile.legal = true ∧ t.fault = false ∧ t.busy = true ∧ opcodeOf .negotiate = some t.curCmd ∧
      t.inputs = [.run] :=
  ⟨running 7#4 .sendSoftReset 0#8 [], { running 7#4 .sendSoftReset 0#8 [] with inputs := [.run] },
    running_inProgress _ _ _ _, rfl, rfl, test_default_profile_is_legal, rfl, rfl, rfl, rfl⟩

theorem witness_QuiescentBlockWaits :
    ∃ s t : State, s.profile.legal = true ∧ s.busy = false ∧ s.inputs = [] ∧
      t.profile.legal = true ∧ t.fault = true ∧ t.inputs = [.run] :=
  ⟨State.reset, { State.reset with fault := true, busy := true, inputs := [.run] },
    test_default_profile_is_legal, rfl, rfl, test_default_profile_is_legal, rfl, rfl⟩

theorem witness_IllegalProfileRunsNothing : ∃ s : State, s.profile.legal = false :=
  ⟨State.resetWith badProfile, by decide⟩

/-- A faulted, busy block that the host writes to. -/
theorem witness_FaultedBlockIsFrozen :
    ∃ s t : State, s.profile.legal = true ∧ s.fault = true ∧ (∀ rest, s.inputs ≠ .reset :: rest) ∧
      step s = .next t :=
  ⟨{ running 8#4 .nvmReadImage 7#8 [] with fault := true, inputs := [.hostWrite 0x04#8 1#32] }, _,
    test_default_profile_is_legal, rfl, by simp, rfl⟩

theorem witness_HostAccessWhileBusy : ∃ s : State, s.profile.legal = true ∧ s.busy = true :=
  ⟨running 7#4 .commit 0#8 [], test_default_profile_is_legal, rfl⟩

theorem running_invariant {opc : BitVec 4} {st : SeqState} {k : BitVec 8} (script : List IcAnswer)
    (h : Positioned (running opc st k script)) (hd : st ≠ .done) (hc : st ≠ .capture) (hw : st ≠ .waitCaps) :
    Invariant (running opc st k script) where
  mem := rfl
  okBit := ⟨(fun h => nomatch h), fun h => absurd h.2 hd⟩
  errCode := (by decide : (0#4).toNat ≤ 10 ∧ 0#4 ≠ 5#4)
  busyErr := fun _ => rfl
  position := h
  faultBusy := fun _ => rfl
  sect := (by decide : (0#3).toNat ≤ 4)
  capture := fun _ h => absurd h hc
  header := fun _ h => absurd h hw

/-- A step that issues a transaction, from a state that meets the invariant. -/
theorem witness_AtMostOneTransactionPerStep :
    ∃ (s t : State) (e : BusEvent), Invariant s ∧ step s = .next t ∧ t.trace = s.trace ++ [e] :=
  ⟨running 7#4 .sendSoftReset 1#8 [acked], _, _,
    running_invariant _ (by unfold Positioned; decide) (by decide) (by decide) (by decide), rfl, rfl⟩

theorem witness_ResetAbandonsTheCommand :
    ∃ (s : State) (rest : List Input), s.profile.legal = true ∧ s.inputs = .reset :: rest :=
  ⟨{ running 10#4 .nvmProgram 13#8 [] with inputs := [.reset, .run] }, _, test_default_profile_is_legal, rfl⟩

theorem witness_HostWriteStoresRegister : ∃ s : State, s.profile.legal = true ∧ s.busy = false :=
  ⟨State.reset, test_default_profile_is_legal, rfl⟩

theorem witness_HostWriteStoresBufferByte :
    ∃ s : State, s.profile.legal = true ∧ s.busy = false ∧ Memory.wf s.mem = true ∧
      ∀ idx ∈ [0x20#8, 0x47#8, 0x70#8, 0x97#8],
        (0x20 ≤ idx.toNat ∧ idx.toNat ≤ 0x47) ∨ (0x70 ≤ idx.toNat ∧ idx.toNat ≤ 0x97) :=
  ⟨{ State.reset with mem := captured }, test_default_profile_is_legal, rfl, by decide, by decide⟩

theorem witness_IgnoredHostWrites :
    ∃ s : State, s.profile.legal = true ∧ s.busy = false ∧
      ∀ idx ∈ [0x15#8, 0x1F#8, 0xC0#8, 0xFF#8, 0x01#8, 0x14#8, 0x48#8, 0x6F#8, 0x98#8, 0xBF#8],
        (0x15 ≤ idx.toNat ∧ idx.toNat ≤ 0x1F) ∨ 0xC0 ≤ idx.toNat ∨
          idx.toNat ∈ [0x01, 0x02, 0x06, 0x07, 0x08, 0x14] ∨ (0x48 ≤ idx.toNat ∧ idx.toNat ≤ 0x6F) ∨
          (0x98 ≤ idx.toNat ∧ idx.toNat ≤ 0xBF) :=
  ⟨State.reset, test_default_profile_is_legal, rfl, by decide⟩

/-- Every register holds a value, and the first and last buffer bytes are written. -/
theorem witness_HostReadReturnsRegister :
    ∃ s : State, s.profile.legal = true ∧ s.arg0 ≠ none ∧ s.arg1 ≠ none ∧ HasNvmConfig s cfgK ∧
      s.negMinI ≠ none ∧ s.negMinV ≠ none ∧ s.negMaxV ≠ none ∧ s.capCount ≠ none ∧ s.rxHdr ≠ none ∧
      Memory.get s.mem 0x20 ≠ none ∧ Memory.get s.mem 0xBF ≠ none :=
  ⟨withConfig cfgK { selecting 5#4 .exec 12000#16 with
      arg0 := some 1#32, arg1 := some 2#32, rxHdr := some 3#16, mem := captured ++ [(0xBF, 7#8)] },
    test_default_profile_is_legal, by decide, by decide, ⟨rfl, rfl, rfl, rfl, rfl, rfl, rfl, rfl, rfl, rfl⟩,
    by decide, by decide, by decide, by decide, by decide, by decide, by decide⟩

theorem cfgK_inRange : InRange cfgK := by
  refine ⟨?_, ?_, ?_, ?_, ?_, ?_, ?_, ?_, ?_, ?_, ?_⟩ <;> decide

theorem withConfig_has (c : NvmConfig) (s : State) : HasNvmConfig (withConfig c s) c :=
  ⟨rfl, rfl, rfl, rfl, rfl, rfl, rfl, rfl, rfl, rfl⟩

/-- One state for each clause: faulted, busy, and accepting; the words of NVM_FLASH and of the illegal space. -/
theorem witness_CommandIssue :
    ∃ s t u : State,
      s.profile.legal = true ∧ s.fault = true ∧ t.profile.legal = true ∧ t.busy = true ∧
      u.profile.legal = true ∧ u.fault = false ∧ u.busy = false ∧
      decode [(0x0A#32).extractLsb' 0 8] = .ok (.nvmFlash, []) ∧ (∃ c, HasNvmConfig u c ∧ InRange c) ∧
      decode [(0x1C#32).extractLsb' 0 8] = .ok (.illegalOpc 0x1C#8, []) ∧
      opcodeOf (.illegalOpc 0x1C#8) = none :=
  ⟨{ State.reset with fault := true }, running 6#4 .presence 0#8 [], withConfig cfgK State.reset,
    test_default_profile_is_legal, rfl, test_default_profile_is_legal, rfl, test_default_profile_is_legal, rfl, rfl,
    decode_of (by decide), ⟨cfgK, withConfig_has _ _, cfgK_inRange⟩, decode_of (by decide), rfl⟩

/-- A missing register, and each bound of R98 passed by one. -/
theorem witness_FlashIssueValidates :
    (0xFFFFFF0A#32).toNat % 256 = 0x0A ∧ (∃ s, Issuable s ∧ LacksNvmConfig s) ∧
    ∀ c ∈ [{ cfgK with numValid := 0#2 }, { cfgK with pdo1I := 249#16 }, { cfgK with pdo2I := 4250#16 },
        { cfgK with flexI := 10240#16 }, { cfgK with pdo2V := 25600#16 }],
      Issuable (withConfig c State.reset) ∧ HasNvmConfig (withConfig c State.reset) c ∧ ¬ InRange c := by
  refine ⟨by decide, ⟨State.reset, reset_issuable, .inl rfl⟩, fun c hc => ⟨reset_issuable, withConfig_has _ _, ?_⟩⟩
  unfold InRange
  revert c
  decide

theorem witness_IllegalWord :
    ∃ s : State, Issuable s ∧ ∀ w ∈ [0x00#8, 0x0B#8, 0x0F#8, 0x10#8, 0x11#8, 0xFF#8],
      (11 ≤ w.toNat % 16 ∨ w.toNat % 16 = 0 ∨ 1 ≤ w.toNat / 16) ∧
      ∃ v : U32, v.toNat % 256 = w.toNat := by
  refine ⟨State.reset, reset_issuable, fun w hw => ⟨?_, w.setWidth 32, ?_⟩⟩
  · revert w
    decide
  · simp
    omega

/-- One unwritten operand per clause: right after reset every operand is unwritten, and a capture of three words whose
last byte is missing. -/
theorem witness_PureCommandFaultsOnUnwrittenOperand :
    (∀ opc : BitVec 4, InProgress opc .exec (running opc .exec 0#8 [])) ∧
    (∀ opc : BitVec 4, (running opc .exec 0#8 []).arg0 = none ∧ (running opc .exec 0#8 []).capCount = none ∧
      LacksNvmConfig (running opc .exec 0#8 [])) ∧
    (∃ s : State, InProgress 5#4 .exec s ∧
      ∃ c : Byte, s.capCount = some c ∧ ∃ j < 4 * (c.toNat % 8), Memory.get s.mem (0x20 + j) = none) ∧
    (∃ s : State, InProgress 9#4 .exec s ∧ ∃ j < 40, Memory.get s.mem (0x70 + j) = none) :=
  ⟨fun _ => running_inProgress _ _ _ _, fun _ => ⟨rfl, rfl, .inl rfl⟩,
    ⟨{ selecting 5#4 .exec 12000#16 with mem := captured.dropLast }, running_inProgress _ _ 0#8 [], 3#8, rfl, 11,
      by decide, by decide⟩,
    ⟨running 9#4 .exec 0#8 [], running_inProgress _ _ _ _, 39, by decide, rfl⟩⟩

theorem witness_CommandDuringAnotherFaults :
    ∃ (s : State) (i : Instr), s.profile.legal = true ∧ s.busy = true ∧ opcodeOf i ≠ some s.curCmd :=
  ⟨running 7#4 .commit 0#8 [], .pdoDecode, test_default_profile_is_legal, rfl, by decide⟩

/-- PDO_DECODE, PDO_ENCODE, PDO_POWER and HDR_CLASSIFY: their operands written. -/
theorem witness_codec_results :
    ∀ opc : BitVec 4, ∃ (s : State) (c v : U32), InProgress opc .exec s ∧ s.arg0 = some c ∧ s.arg1 = some v :=
  fun opc => ⟨{ running opc .exec 0#8 [] with arg0 := some 0xFFFFFFFF#32, arg1 := some 0#32 }, _, _,
    running_inProgress _ _ 0#8 [], rfl, rfl⟩

/-- The ends of the grid. -/
theorem witness_CodecRoundTrip :
    ∃ p : DeviceProfile, p.legal = true ∧ ∀ c ∈ [0#16, 10230#16], ∀ v ∈ [0#16, 51150#16],
      c.toNat % 10 = 0 ∧ c.toNat ≤ 10230 ∧ v.toNat % 50 = 0 ∧ v.toNat ≤ 51150 :=
  ⟨defaultProfile, test_default_profile_is_legal, by simp⟩

theorem captured_holds : HoldsWords captured 3 capturedWords := by unfold HoldsWords; decide

/-- L1-2: word 1 wins. -/
theorem captured_wins : Wins defaultProfile ⟨1500#16, 5000#16, 12000#16⟩ 3 capturedWords 1 := by
  unfold Wins IsCandidate; decide

/-- L1-3: none does. -/
theorem captured_none : NoneWins defaultProfile ⟨1500#16, 5000#16, 4000#16⟩ 3 capturedWords := by
  unfold NoneWins IsCandidate; decide

/-- PDO_SELECT and the SELECT state of NEGOTIATE, both outcomes. -/
theorem witness_selection :
    ∀ x ∈ [((5#4 : BitVec 4), SeqState.exec), (7#4, .select)], ∃ s t : State,
      InProgress x.1 x.2 s ∧ s.capCount = some 3#8 ∧ HasNegConfig s ⟨1500#16, 5000#16, 12000#16⟩ ∧
      HoldsWords s.mem ((3#8).toNat % 8) capturedWords ∧
      Wins s.profile ⟨1500#16, 5000#16, 12000#16⟩ ((3#8).toNat % 8) capturedWords 1 ∧
      InProgress x.1 x.2 t ∧ t.capCount = some 3#8 ∧ HasNegConfig t ⟨1500#16, 5000#16, 4000#16⟩ ∧
      HoldsWords t.mem ((3#8).toNat % 8) capturedWords ∧
      NoneWins t.profile ⟨1500#16, 5000#16, 4000#16⟩ ((3#8).toNat % 8) capturedWords :=
  fun x _ => ⟨selecting x.1 x.2 12000#16, selecting x.1 x.2 4000#16, running_inProgress _ _ 0#8 [], rfl,
    ⟨rfl, rfl, rfl⟩, captured_holds, captured_wins, running_inProgress _ _ 0#8 [], rfl, ⟨rfl, rfl, rfl⟩,
    captured_holds, captured_none⟩

/-- SelectState, first clause: each of the three registers unwritten. -/
theorem witness_SelectState_unwritten :
    ∃ s t u : State, InProgress 7#4 .select s ∧ s.negMinI = none ∧ InProgress 7#4 .select t ∧ t.negMinV = none ∧
      InProgress 7#4 .select u ∧ u.negMaxV = none :=
  ⟨{ selecting 7#4 .select 12000#16 with negMinI := none }, { selecting 7#4 .select 12000#16 with negMinV := none },
    { selecting 7#4 .select 12000#16 with negMaxV := none }, ⟨test_default_profile_is_legal, rfl, rfl, rfl, rfl⟩, rfl,
    ⟨test_default_profile_is_legal, rfl, rfl, rfl, rfl⟩, rfl, ⟨test_default_profile_is_legal, rfl, rfl, rfl, rfl⟩, rfl⟩

/-- SelectFails, third clause: no word, and an empty voltage range. -/
theorem witness_SelectFails_empty :
    (0 = 0 ∨ (4000#16).toNat < (5000#16).toNat) ∧ (3 = 0 ∨ (4000#16).toNat < (5000#16).toNat) := by decide

/-- The two commands, a failure, an ID in the set and one outside it. -/
theorem witness_PresenceOutcomes :
    ∀ opc : BitVec 4, ∀ b ∈ [0x21#8, 0x25#8, 0x00#8], ∃ s t : State,
      InProgress opc .presence s ∧ icAnswer s (.read s.profile.regDeviceId 1) = .fail ∧
      InProgress opc .presence t ∧ icAnswer t (.read t.profile.regDeviceId 1) = .ok [b] ∧
      (b ∈ t.profile.idSet ↔ b ≠ 0x00#8) := by
  intro opc b hb
  refine ⟨running opc .presence 0#8 [.fail], running opc .presence 0#8 [.ok [b]], running_inProgress _ _ _ _,
    running_fails _ _ _ _ _, running_inProgress _ _ _ _, running_reads _ _ _ _ _ _, ?_⟩
  show b ∈ [0x21#8, 0x25#8] ↔ b ≠ 0x00#8
  revert b
  decide

/-- WAIT_ATTACH and SINK_READY_WAIT: the start of the poll, a failure, a read that ends it, and reads that do not
without a clock, past the budget and at it (`polling_elapsed`). -/
theorem witness_WaitAttach_SinkReadyWait :
    (∀ st : SeqState, InProgress 7#4 st (running 7#4 st 0#8 []) ∧ InProgress 7#4 st (polling 7#4 st 0#8 [] 5#32) ∧
      (∀ req, icAnswer (running 7#4 st 1#8 [.fail]) req = .fail) ∧
      (∀ b reg, icAnswer (running 7#4 st 1#8 [.ok [b]]) (.read reg 1) = .ok [b]) ∧
      (∀ b reg now, icAnswer (polling 7#4 st 1#8 [.ok [b]] now) (.read reg 1) = .ok [b])) ∧
    0x01#8 &&& defaultProfile.attachMask ≠ 0#8 ∧ ¬ (0x00#8 &&& defaultProfile.attachMask ≠ 0#8) ∧
    0x18#8 = defaultProfile.peSnkReady ∧ 0x00#8 ≠ defaultProfile.peSnkReady :=
  ⟨fun _ => ⟨running_inProgress _ _ _ _, polling_inProgress _ _ _ _ _, fun _ => rfl,
    fun _ _ => running_reads _ _ _ _ _ _, fun _ _ _ => polling_reads _ _ _ _ _ _⟩,
    by decide, by decide, by decide, by decide⟩

/-- SEND_SOFT_RESET, COMMIT, RENEGOTIATE and the exits of the NVM commands: a write that fails and one that does
not. -/
theorem witness_writes :
    ∀ (opc : BitVec 4) (st : SeqState) (k : BitVec 8), ∃ s t : State,
      InProgress opc st s ∧ s.mstep = k ∧ (∀ req, icAnswer s req = .fail) ∧
      InProgress opc st t ∧ t.mstep = k ∧ (∀ reg w, icAnswer t (.write reg w) = .ok []) :=
  fun opc st k => ⟨running opc st k [.fail], running opc st k [acked], running_inProgress _ _ _ _, rfl, fun _ => rfl,
    running_inProgress _ _ _ _, rfl, fun _ _ => running_writes _ _ _ _ _ _⟩

/-- W1 to W3: a message and none, a capabilities header and one that is not (L1-4), the byte count of one object and
another. -/
theorem witness_WaitCaps :
    (∀ k : BitVec 8, ∀ bytes : List Byte, ∀ reg : Byte,
      InProgress 7#4 .waitCaps { running 7#4 .waitCaps k [.ok bytes] with rxHdr := some 0x1061#16 } ∧
      icAnswer { running 7#4 .waitCaps k [.ok bytes] with rxHdr := some 0x1061#16 } (.read reg bytes.length) =
        .ok bytes) ∧
    (0x04#8 &&& defaultProfile.msgReceivedMask ≠ 0#8 ∧ 0x00#8 &&& defaultProfile.msgReceivedMask = 0#8) ∧
    (0x1061 / 2 ^ defaultProfile.hdrCountLsb % 8 ≠ 0 ∧
      0x1061 % 2 ^ defaultProfile.msgTypeBits = defaultProfile.srcCapType.toNat) ∧
    0x0041 / 2 ^ defaultProfile.hdrCountLsb % 8 = 0 ∧
    (0x04#8).toNat = 4 * (0x1061 / 2 ^ defaultProfile.hdrCountLsb % 8) ∧
    (0x08#8).toNat ≠ 4 * (0x1061 / 2 ^ defaultProfile.hdrCountLsb % 8) :=
  ⟨fun _ _ _ => ⟨⟨test_default_profile_is_legal, rfl, rfl, rfl, rfl⟩, icAnswer_scripted_read rfl rfl rfl⟩,
    by decide, by decide, by decide, by decide, by decide⟩

/-- WT: without a clock, at the budget and past it. -/
theorem witness_WaitCaps_time :
    (running 7#4 .waitCaps 4#8 []).clkPresent = false ∧
    (∀ now, (polling 7#4 .waitCaps 4#8 [] now).clkPresent = true) ∧
    (clockNow (polling 7#4 .waitCaps 4#8 [] 801#32) - (polling 7#4 .waitCaps 4#8 [] 801#32).tStart).toNat = 501 ∧
    (clockNow (polling 7#4 .waitCaps 4#8 [] 800#32) - (polling 7#4 .waitCaps 4#8 [] 800#32).tStart).toNat = 500 :=
  ⟨rfl, fun _ => rfl, (by decide : (801#32 - 300#32).toNat = 501), (by decide : (800#32 - 300#32).toNat = 500)⟩

/-- One object and seven. -/
theorem witness_CaptureStoresTheBytes :
    ∀ n ∈ [1#8, 7#8], ∃ (s : State) (bytes : List Byte), InProgress 7#4 .capture s ∧ s.capCount = some n ∧
      1 ≤ n.toNat ∧ n.toNat ≤ 7 ∧ icAnswer s (.read s.profile.regRxData (4 * n.toNat)) = .ok bytes := by
  intro n hn
  refine ⟨{ running 7#4 .capture 0#8 [.ok (List.replicate (4 * n.toNat) 0#8)] with capCount := some n }, _,
    ⟨test_default_profile_is_legal, rfl, rfl, rfl, rfl⟩, rfl, ?_, ?_,
    icAnswer_scripted_read rfl rfl (by simp)⟩ <;> (revert n; decide)

/-- A write of NEGOTIATE, and its move from SELECT to COMMIT. -/
theorem witness_NegotiateWriteSet :
    (∃ (s t : State) (dev : BitVec 7) (reg : Byte) (bytes : List Byte) (a : IcAnswer),
      exec .negotiate s = .next t ∧ t.trace = s.trace ++ [⟨dev, .write reg bytes, a⟩]) ∧
    (∃ s t : State, s.fault = false ∧ s.busy = true ∧ s.curCmd = 7#4 ∧ exec .negotiate s = .next t ∧
      t.seq = .commit) ∧
    (∃ s t : State, s.fault = false ∧ s.busy = true ∧ s.curCmd = 7#4 ∧ exec .negotiate s = .next t ∧
      s.seq = .renegotiate) :=
  ⟨⟨running 7#4 .commit 0#8 [acked], _, _, _, _, _, rfl, rfl⟩,
    ⟨selecting 7#4 .select 12000#16, _, rfl, rfl, rfl, rfl, rfl⟩,
    ⟨running 7#4 .renegotiate 0#8 [acked], _, rfl, rfl, rfl, rfl, rfl⟩⟩

/-- The answers of L1-2's source, for a block with the profile of R6. -/
def sourceAnswers (onInterrupt : Bool) : List IcAnswer :=
  [.ok [0x25#8], .ok [0x01#8]] ++ (if onInterrupt = true then [] else [.ok [0x18#8], acked, acked]) ++
    [.ok [0x04#8], .ok [0x61#8, 0x31#8], .ok [0x0C#8], .ok (captured.map Prod.snd), acked, acked, acked]

theorem witness_NegotiateSuccessTrace :
    ∀ onInterrupt : Bool, ∃ s : State, Issuable s ∧ s.ic = .oracle ∧ s.onInterrupt = onInterrupt ∧
      HasNegConfig s ⟨1500#16, 5000#16, 12000#16⟩ ∧
      0x25#8 ∈ s.profile.idSet ∧ 0x01#8 &&& s.profile.attachMask ≠ 0#8 ∧ 0x18#8 = s.profile.peSnkReady ∧
      0x04#8 &&& s.profile.msgReceivedMask ≠ 0#8 ∧
      3 = ((0x61#8).toNat + 256 * (0x31#8).toNat) / 2 ^ s.profile.hdrCountLsb % 8 ∧
      ((0x61#8).toNat + 256 * (0x31#8).toNat) % 2 ^ s.profile.msgTypeBits = s.profile.srcCapType.toNat ∧
      (0x0C#8).toNat = 4 * 3 ∧ (captured.map Prod.snd).length = 4 * 3 ∧
      (∀ j < 3, ∀ k < 4, (captured.map Prod.snd)[4 * j + k]? = some ((capturedWords j).extractLsb' (8 * k) 8)) ∧
      Wins s.profile ⟨1500#16, 5000#16, 12000#16⟩ 3 capturedWords 1 ∧
      s.icScript = sourceAnswers s.onInterrupt ++ [] :=
  fun onInterrupt => ⟨{ State.reset with
      onInterrupt := onInterrupt, icScript := sourceAnswers onInterrupt, negMinI := some 1500#16,
      negMinV := some 5000#16, negMaxV := some 12000#16 },
    reset_issuable, rfl, rfl, ⟨rfl, rfl, rfl⟩, (by decide : 0x25#8 ∈ defaultProfile.idSet),
    (by decide : 0x01#8 &&& defaultProfile.attachMask ≠ 0#8), rfl,
    (by decide : 0x04#8 &&& defaultProfile.msgReceivedMask ≠ 0#8),
    (by decide : 3 = ((0x61#8).toNat + 256 * (0x31#8).toNat) / 2 ^ defaultProfile.hdrCountLsb % 8),
    (by decide : ((0x61#8).toNat + 256 * (0x31#8).toNat) % 2 ^ defaultProfile.msgTypeBits =
      defaultProfile.srcCapType.toNat), by decide, rfl, by decide, captured_wins, (List.append_nil _).symm⟩

/-- Two unsatisfied reads for each kind of poll. -/
theorem witness_PollsHangWithoutBound :
    ∀ x ∈ [((7#4 : BitVec 4), SeqState.waitAttach, (1#8 : BitVec 8), (0x00#8 : Byte)),
        (7#4, .sinkReadyWait, 1#8, 0x00#8), (8#4, .nvmReadImage, 7#8, 0x10#8), (10#4, .nvmProgram, 49#8, 0x10#8),
        (7#4, .waitCaps, 1#8, 0x00#8)],
      ∃ s : State, InProgress x.1 x.2.1 s ∧ s.mstep = x.2.2.1 ∧ s.ic = .oracle ∧ s.clkPresent = false ∧
        s.icScript = [x.2.2.2, x.2.2.2].map (fun b => .ok [b]) ++ [] ∧
        (∀ b ∈ [x.2.2.2, x.2.2.2], b = 0x00#8 ∨ b &&& s.profile.ctrl0Req ≠ 0#8) := by
  intro x hx
  refine ⟨running x.1 x.2.1 x.2.2.1 [.ok [x.2.2.2], .ok [x.2.2.2]], running_inProgress _ _ _ _, rfl, rfl, rfl, rfl, ?_⟩
  revert x
  decide

/-- `AckPollAt` at its first and last value in each state that polls. -/
theorem witness_AckPollAt :
    AckPollAt .nvmReadImage 7 ∧ AckPollAt .nvmVerifyRead 35 ∧ AckPollAt .nvmErase 7 ∧ AckPollAt .nvmErase 15 ∧
    AckPollAt .nvmProgram 5 ∧ AckPollAt .nvmProgram 49 := by
  unfold AckPollAt; decide

theorem witness_PatchWritesFieldValues : defaultProfile.legal = true ∧ InRange cfgK :=
  ⟨test_default_profile_is_legal, cfgK_inRange⟩

/-- Bits outside the fields, and images that agree there and differ inside. -/
theorem witness_PatchIsolation :
    defaultProfile.legal = true ∧ ¬ InFieldBits defaultProfile.fieldLsb 0 0 ∧
    ¬ InFieldBits defaultProfile.fieldLsb 8 6 ∧ InFieldBits defaultProfile.fieldLsb 8 5 := by
  refine ⟨test_default_profile_is_legal, ?_, ?_, ?_⟩
  · rintro (h | h | h | ⟨k, h⟩ | ⟨k, h⟩ | ⟨k, h⟩ | h | h | h | h) <;> omega
  · rintro (h | h | h | ⟨k, h⟩ | ⟨k, h⟩ | ⟨k, h⟩ | h | h | h | h) <;> omega
  · simp [InFieldBits]

/-- Images that differ in a field's bit alone. -/
theorem witness_PatchIsIdempotentAndDeterministic :
    ∃ img img' : Image, img ≠ img' ∧
      ∀ j < 40, ∀ b < 8, ¬ InFieldBits defaultProfile.fieldLsb j b → imageBit img j b = imageBit img' j b := by
  refine ⟨flat 0#8, (flat 0#8).set 8 0x10#8, by decide, ?_⟩
  intro j hj b hb h
  by_cases hjb : j = 8 ∧ b = 4
  · refine absurd ?_ h
    obtain ⟨rfl, rfl⟩ := hjb
    simp [InFieldBits]
  · revert hjb
    clear h
    revert j b
    decide

theorem flat_holds (base : Nat) (b : Byte) : HoldsImage (storeImage [] base (flat b)) base (flat b) := by
  intro j hj
  have h := Memory.getBytes_setBytes [] base (flat b).toList
  rw [Vector.length_toList] at h
  have := (Memory.getBytes_eq_some.1 h).2 j hj
  simpa [storeImage] using this

/-- NVM_PATCH, with a configuration in range and one that is not. -/
theorem witness_NvmPatchResult :
    ∀ c ∈ [cfgK, { cfgK with pdo3I := 249#16 }], ∃ s : State,
      InProgress 9#4 .exec s ∧ HasNvmConfig s c ∧ HoldsImage s.mem 0x70 (flat 0xFF#8) :=
  fun c _ => ⟨withConfig c { running 9#4 .exec 0#8 [] with mem := storeImage [] 0x70 (flat 0xFF#8) },
    running_inProgress _ _ 0#8 [], withConfig_has _ _, flat_holds 0x70 0xFF#8⟩

/-- The acknowledge poll: its start, and a read that fails, ends it, and does not end it with and without a bound. -/
theorem witness_RequestPollWaitsForClear :
    AckPollAt .nvmReadImage ((running 8#4 .nvmReadImage 6#8 []).mstep.toNat + 1) ∧
    (∃ s : State, InProgress 10#4 .nvmErase s ∧ AckPollAt .nvmErase s.mstep.toNat ∧ s.clkPresent = true ∧
      s.profile.nvmAckBudgetMs = some 100 ∧ icAnswer s (.read s.profile.regNvmCtrl0 1) = .ok [0x10#8] ∧
      ¬ (0x10#8 &&& s.profile.ctrl0Req = 0#8) ∧
      100 < (clockNow (afterBus s (.read s.profile.regNvmCtrl0 1)) - s.tStart).toNat) ∧
    (∃ s : State, InProgress 8#4 .nvmReadImage s ∧ AckPollAt .nvmReadImage s.mstep.toNat ∧
      s.profile.nvmAckBudgetMs = none ∧ icAnswer s (.read s.profile.regNvmCtrl0 1) = .ok [0xEF#8] ∧
      0xEF#8 &&& s.profile.ctrl0Req = 0#8) := by
  refine ⟨by unfold AckPollAt; decide, ⟨{ polling 10#4 .nvmErase 15#8 [.ok [0x10#8]] 401#32 with
      profile := boundedProfile }, ⟨by decide, rfl, rfl, rfl, rfl⟩, by unfold AckPollAt; decide, rfl, rfl,
      icAnswer_scripted_read rfl rfl rfl, by decide, ?_⟩,
    ⟨running 8#4 .nvmReadImage 35#8 [.ok [0xEF#8]], running_inProgress _ _ _ _, by unfold AckPollAt; decide, rfl,
      icAnswer_scripted_read rfl rfl rfl, by decide⟩⟩
  show 100 < (401#32 - 300#32).toNat
  decide

/-- Sectors 0 and 4. -/
theorem witness_ReadSectorStoresItsSector :
    ∀ n ∈ [0, 4], ∃ s : State, InProgress 8#4 .nvmReadImage s ∧ n < 5 ∧ s.mstep.toNat = 7 * n + 8 ∧
      s.sect.toNat = n ∧
      icAnswer s (.read s.profile.regNvmRwbuf 8) = .ok [1#8, 2#8, 3#8, 4#8, 5#8, 6#8, 7#8, 8#8] := by
  intro n hn
  refine ⟨{ running 8#4 .nvmReadImage (BitVec.ofNat 8 (7 * n + 8))
      [.ok [1#8, 2#8, 3#8, 4#8, 5#8, 6#8, 7#8, 8#8]] with sect := BitVec.ofNat 3 n },
    ⟨test_default_profile_is_legal, rfl, rfl, rfl, rfl⟩, ?_, ?_, ?_, icAnswer_scripted_read rfl rfl rfl⟩ <;>
    (simp only [List.mem_cons, List.not_mem_nil, or_false] at hn; rcases hn with rfl | rfl <;> decide)

/-- An IC that reads back zeroes with the request bit clear. -/
theorem witness_NvmReadSuccess :
    ∃ s : State, Issuable s ∧ s.ic = .oracle ∧ (∀ k, (fun _ : Nat => 0#8) k &&& s.profile.ctrl0Req = 0#8) ∧
      s.icScript = readImageAnswers (fun _ => 0#8) (flat 0#8) ++ [] :=
  ⟨{ State.reset with icScript := readImageAnswers (fun _ => 0#8) (flat 0#8) }, reset_issuable, rfl,
    fun _ => zero_acks _, (List.append_nil _).symm⟩

theorem witness_FlashPatchState :
    ∃ s : State, InProgress 10#4 .nvmPatch s ∧ HasNvmConfig s cfgK ∧ HoldsImage s.mem 0x48 (flat 0#8) :=
  ⟨withConfig cfgK { running 10#4 .nvmPatch 0#8 [] with mem := storeImage [] 0x48 (flat 0#8) },
    running_inProgress _ _ 0#8 [], withConfig_has _ _, flat_holds 0x48 0#8⟩

theorem witness_EnterWriteModeOrder :
    ∃ s : State, InProgress 10#4 .nvmErase s ∧ s.mstep = 0#8 ∧ s.ic = .oracle ∧
      (∀ k, (fun _ : Nat => 0#8) k &&& s.profile.ctrl0Req = 0#8) ∧
      s.icScript = enterWriteAnswers (fun _ => 0#8) ++ [] :=
  ⟨running 10#4 .nvmErase 0#8 (enterWriteAnswers fun _ => 0#8), running_inProgress _ _ _ _, rfl, rfl,
    fun _ => zero_acks _, (List.append_nil _).symm⟩

/-- Sectors 0 and 4. -/
theorem witness_WriteSectorOrder :
    ∀ n ∈ [0, 4], ∃ s : State, InProgress 10#4 .nvmProgram s ∧ n < 5 ∧ s.mstep.toNat = 10 * n ∧ s.ic = .oracle ∧
      HoldsImage s.mem 0x70 (flat 0#8) ∧ (∀ k, (fun _ : Nat => 0#8) k &&& s.profile.ctrl0Req = 0#8) ∧
      s.icScript = writeSectorAnswers (fun _ => 0#8) n ++ [] := by
  intro n hn
  refine ⟨{ running 10#4 .nvmProgram (BitVec.ofNat 8 (10 * n)) (writeSectorAnswers (fun _ => 0#8) n) with
      mem := storeImage [] 0x70 (flat 0#8) },
    ⟨test_default_profile_is_legal, rfl, rfl, rfl, rfl⟩, ?_, ?_, rfl, flat_holds 0x70 0#8, fun _ => zero_acks _,
    (List.append_nil _).symm⟩ <;>
    (simp only [List.mem_cons, List.not_mem_nil, or_false] at hn; rcases hn with rfl | rfl <;> decide)

/-- Equal images, and images that differ in their last byte alone. -/
theorem witness_CompareIsByteExact :
    ∀ v ∈ [flat 0#8, (flat 0#8).set 39 1#8], ∃ s : State, InProgress 10#4 .nvmCompare s ∧
      HoldsImage s.mem 0x70 (flat 0#8) ∧ HoldsImage s.mem 0x98 v ∧
      ((∀ j < 40, v[j]? = (flat 0#8)[j]?) ∨ (∃ j < 40, v[j]? ≠ (flat 0#8)[j]?)) := by
  intro v _
  refine ⟨{ running 10#4 .nvmCompare 0#8 [] with
      mem := storeImage (storeImage [] 0x70 (flat 0#8)) 0x98 v }, running_inProgress _ _ 0#8 [], ?_, ?_, ?_⟩
  · intro j hj
    rw [← flat_holds 0x70 0#8 j hj]
    exact Memory.get_storeImage_out (.inl (by omega))
  · intro j hj
    have h := Memory.getBytes_setBytes (storeImage [] 0x70 (flat 0#8)) 0x98 v.toList
    rw [Vector.length_toList] at h
    simpa [storeImage] using (Memory.getBytes_eq_some.1 h).2 j hj
  · by_cases h : ∀ j < 40, v[j]? = (flat 0#8)[j]?
    · exact .inl h
    · exact .inr (by simpa using h)

/-- One run whose image reads back as patched, one whose does not, and two runs in a row. -/
theorem witness_FlashRun :
    ∀ script : List IcAnswer, ∃ s : State, Issuable s ∧ s.ic = .oracle ∧ HasNvmConfig s cfgK ∧ InRange cfgK ∧
      (∀ k, (fun _ : Nat => 0#8) k &&& s.profile.ctrl0Req = 0#8) ∧ s.profile = defaultProfile ∧
      s.icScript = script :=
  fun script => ⟨withConfig cfgK { State.reset with icScript := script }, reset_issuable, rfl, withConfig_has _ _,
    cfgK_inRange, fun _ => zero_acks _, rfl, rfl⟩

/-- Both outcomes of the read-back exist. -/
theorem witness_FlashRun_outcomes :
    (∃ back : Image, back = applyConfig defaultProfile cfgK (flat 0#8)) ∧
    flat 0#8 ≠ applyConfig defaultProfile cfgK (flat 0#8) := ⟨⟨_, rfl⟩, by decide⟩

/-- A failed transaction in PRESENCE and one elsewhere. -/
theorem witness_BusFailureEndsTheCommand :
    ∀ st ∈ [SeqState.presence, .waitAttach, .commit], ∃ (s t : State) (e : BusEvent),
      s.seq = st ∧ exec .negotiate s = .next t ∧ t.trace = s.trace ++ [e] ∧ e.answer = .fail := by
  intro st hst
  refine ⟨running 7#4 st 1#8 [.fail], ?_⟩
  simp only [List.mem_cons, List.not_mem_nil, or_false] at hst
  rcases hst with rfl | rfl | rfl <;> exact ⟨_, _, rfl, rfl, rfl, rfl⟩

/-- A step that ends in an error. -/
theorem witness_ErrorsAllowedPerCommand :
    ∃ t : State, exec .negotiate (polling 7#4 .waitCaps 4#8 [] 801#32) = .next t ∧ t.err = 3#4 :=
  ⟨_, rfl, rfl⟩

theorem reset_invariant : Invariant State.reset where
  mem := rfl
  okBit := by decide
  errCode := by decide
  busyErr := fun h => by cases h
  position := by unfold Positioned; decide
  faultBusy := fun h => by cases h
  sect := by decide
  capture := fun h => by cases h
  header := fun h => by cases h

/-- A step from a state that meets the invariant, and one from reset. -/
theorem witness_StepKeepsInvariant :
    (∃ t : State, step (running 7#4 .sendSoftReset 1#8 [acked]) = .next t ∧ t.seq = .waitCaps) ∧
    Invariant (running 7#4 .sendSoftReset 1#8 [acked]) ∧ Invariant State.reset :=
  ⟨⟨_, rfl, rfl⟩, running_invariant _ (by unfold Positioned; decide) (by decide) (by decide) (by decide), reset_invariant⟩

theorem witness_StepAlwaysAnswersNext : State.reset.profile.legal = true ∧ Invariant State.reset :=
  ⟨test_default_profile_is_legal, reset_invariant⟩

/-- A reset of a faulted block, a transaction, and a command that faults. -/
theorem witness_WholeMachineRules :
    (∃ t : State, step { State.reset with fault := true, inputs := [.reset] } = .next t ∧ t.fault = false) ∧
    (∃ t : State, step (running 7#4 .sendSoftReset 1#8 [acked]) = .next t ∧ t.trace ≠ []) ∧
    (∃ t : State, step (State.reset.withFetchWord 8 0x0A) = .next t ∧ t.fault = true) :=
  ⟨⟨_, rfl, rfl⟩, ⟨_, rfl, by simp [afterBus, goto, running, State.reset, State.resetWith]⟩, ⟨_, rfl, rfl⟩⟩

end Sys2Proof.Tests
end

section
/-!
PROOFS about the block's state as the host sees it (R25).
-/

namespace Sys2Proof.Machine

/-- Settles O9: the queued access lands as `hostWrite` or `hostRead`. The write at a busy block is `setFault`; the
read's draw, for a register nothing has written, is the one the configuration names at the current count. -/
theorem hostAccessWhileBusy : Obligations.HostAccessWhileBusy := by
  intro s idx v hl hb
  constructor
  · calc hostWrites idx v s
      _ = hostWrite idx v s := hostWrites_eq idx v hl
      _ = .next (setFault s) := hostWrite_busy idx v hb
  · exact ⟨Config.unwrittenRead s.draws, hostReads_eq idx hl⟩

end Sys2Proof.Machine
end

section
/-!
PROOFS about the PDO codec: its bit-level functions in natural numbers (R59, R61, R62), and the commands PDO_DECODE,
PDO_ENCODE and PDO_POWER (R63 to R65).
-/

namespace Sys2Proof.Machine

/-! ## The operands and the codec in natural numbers -/

@[simp] theorem low16_toNat (w : U32) : (low16 w).toNat = w.toNat % 65536 := by
  simp [low16]

@[simp] theorem pdoCurrent_toNat (w : U32) : (pdoCurrent w).toNat = mA w := by
  simp only [pdoCurrent, mA, BitVec.toNat_mul, BitVec.toNat_setWidth, BitVec.extractLsb'_toNat, BitVec.toNat_ofNat,
    Nat.shiftRight_zero, Nat.reducePow, Nat.reduceMod]
  omega

@[simp] theorem pdoVoltage_toNat (w : U32) : (pdoVoltage w).toNat = mV w := by
  simp only [pdoVoltage, mV, BitVec.toNat_mul, BitVec.toNat_setWidth, BitVec.extractLsb'_toNat, BitVec.toNat_ofNat,
    Nat.shiftRight_eq_div_pow, Nat.reducePow, Nat.reduceMod]
  omega

@[simp] theorem pdoType_toNat (p : DeviceProfile) (w : U32) : (pdoType p w).toNat = typeCode p w := by
  simp [pdoType, typeCode, Nat.shiftRight_eq_div_pow]

/-- R45: each ten-bit field of the packed word is a quotient, cut to its width. -/
theorem quotient_field_toNat (x d : U16) :
    (((x / d) &&& 0x3FF#16).setWidth 32).toNat = x.toNat / d.toNat % 1024 := by
  have hq : (x / d).toNat &&& 1023 = (x / d).toNat % 1024 := Nat.and_two_pow_sub_one_eq_mod _ 10
  have hlt := Nat.mod_lt (x / d).toNat (show 0 < 1024 by decide)
  rw [BitVec.toNat_setWidth, BitVec.toNat_and, show (0x3FF#16).toNat = 1023 from rfl, hq, ← BitVec.toNat_udiv]
  omega

/-- R45, R61: the two fields do not overlap, so that joining them is adding them. -/
theorem pdoEncode_eq_packed (c v : U16) : pdoEncode c v = packed c.toNat v.toNat := by
  have hc : c.toNat / 10 % 1024 < 2 ^ 10 := Nat.mod_lt _ (by decide)
  have hv : v.toNat / 50 % 1024 < 2 ^ 10 := Nat.mod_lt _ (by decide)
  apply BitVec.eq_of_toNat_eq
  calc (pdoEncode c v).toNat
    _ = c.toNat / 10 % 1024 ||| (v.toNat / 50 % 1024) <<< 10 % 2 ^ 32 := by
      rw [pdoEncode, BitVec.toNat_or, BitVec.toNat_shiftLeft, quotient_field_toNat, quotient_field_toNat]
      rfl
    _ = (v.toNat / 50 % 1024) <<< 10 ||| c.toNat / 10 % 1024 := by
      rw [Nat.or_comm, Nat.mod_eq_of_lt (by rw [Nat.shiftLeft_eq]; omega)]
    _ = (packed c.toNat v.toNat).toNat := by
      rw [← Nat.shiftLeft_add_eq_or_of_lt hc, Nat.shiftLeft_eq, packed, BitVec.toNat_ofNat]
      omega

/-- R62: the product of two 16-bit values fits in 32 bits, so that only the division cuts. -/
@[simp] theorem powerMw_toNat (c v : U16) : (powerMw c v).toNat = milliwatts c.toNat v.toNat := by
  have hcv : c.toNat * v.toNat < 2 ^ 16 * 2 ^ 16 := Nat.mul_lt_mul'' c.isLt v.isLt
  have hc : c.toNat % 2 ^ 32 = c.toNat := Nat.mod_eq_of_lt (by omega)
  have hv : v.toNat % 2 ^ 32 = v.toNat := Nat.mod_eq_of_lt (by omega)
  have hp : c.toNat * v.toNat % 2 ^ 32 = c.toNat * v.toNat := Nat.mod_eq_of_lt (by omega)
  rw [powerMw, BitVec.toNat_udiv, BitVec.toNat_mul, BitVec.toNat_setWidth, BitVec.toNat_setWidth, hc, hv, hp]
  rfl

/-- A value and its natural number give the same result register. -/
theorem setWidth_eq_ofNat {n : Nat} {x : BitVec n} {k : Nat} (h : x.toNat = k) :
    x.setWidth 32 = BitVec.ofNat 32 k := by
  rw [← h, BitVec.ofNat_toNat]

theorem powerMw_eq_ofNat (c v : U16) : powerMw c v = BitVec.ofNat 32 (milliwatts c.toNat v.toNat) := by
  rw [← powerMw_toNat, BitVec.ofNat_toNat, BitVec.setWidth_eq]

/-! ## The step of a pure command in progress -/

/-- R57: the end as the statements write it down. -/
theorem endOk_eq_finished (s : State) : endOk s = finished s := rfl

/-- R58: the one step a pure command takes in `EXEC`. -/
theorem InProgress.pureCommand_body {opc : BitVec 4} {body : State → Out} {s : State}
    (h : InProgress opc .exec s) : pureCommand opc body s = body s := by
  obtain ⟨hl, hf, hb, hc, hq⟩ := h
  exact Machine.pureCommand_body hl hf hb hc hq

theorem ampVoltOperands_of {s : State} {c v : U32} (hc : s.arg0 = some c) (hv : s.arg1 = some v) :
    ampVoltOperands s = some (low16 c, low16 v) := by
  simp [ampVoltOperands, hc, hv]

/-- Settles O22: the step ends with the three fields of the word, each equal to its natural number. -/
theorem pdoDecodeResult : Obligations.PdoDecodeResult := by
  refine ⟨rfl, fun s w hs hw => ?_⟩
  have hI := setWidth_eq_ofNat (pdoCurrent_toNat w)
  have hV := setWidth_eq_ofNat (pdoVoltage_toNat w)
  have hT := setWidth_eq_ofNat (pdoType_toNat s.profile w)
  rw [exec, execPdoDecode, hs.pureCommand_body, withOperand_of hw, hI, hV, hT, endOk_eq_finished]

/-- Settles O23: the step ends with the encoded word, which is the packed one. -/
theorem pdoEncodeResult : Obligations.PdoEncodeResult := by
  refine ⟨rfl, fun s c v hs hc hv => ?_⟩
  rw [exec, execPdoEncode, hs.pureCommand_body, withOperand_of (ampVoltOperands_of hc hv), pdoEncode_eq_packed,
    low16_toNat, low16_toNat, endOk_eq_finished]

/-- Settles O24: the step ends with the 32-bit power, which is the exact one. -/
theorem pdoPowerResult : Obligations.PdoPowerResult := by
  refine ⟨rfl, fun s c v hs hc hv => ?_⟩
  rw [exec, execPdoPower, hs.pureCommand_body, withOperand_of (ampVoltOperands_of hc hv), powerMw_eq_ofNat,
    low16_toNat, low16_toNat, endOk_eq_finished]

end Sys2Proof.Machine
end

section
/-!
PROOFS about the message header: its fields in natural numbers (R46, R47, R68), and the command HDR_CLASSIFY (R69).
-/

namespace Sys2Proof.Machine

/-! ## The header in natural numbers -/

/-- R46: a legal profile gives the message type four or five bits. -/
theorem msgTypeBits_of_legal {p : DeviceProfile} (hl : p.legal = true) : p.msgTypeBits = 4 ∨ p.msgTypeBits = 5 := by
  simp only [DeviceProfile.legal, Bool.and_eq_true, Bool.or_eq_true, beq_iff_eq] at hl
  obtain ⟨⟨⟨⟨-, hb⟩, -⟩, -⟩, -⟩ := hl
  exact hb

@[simp] theorem hdrCount_toNat (p : DeviceProfile) (h : U16) :
    (hdrCount p h).toNat = h.toNat / 2 ^ p.hdrCountLsb % 8 := by
  simp [hdrCount, Nat.shiftRight_eq_div_pow]

/-- R46: at either width the type fits the five bits it is kept in. -/
theorem hdrType_toNat {p : DeviceProfile} (hl : p.legal = true) (h : U16) :
    (hdrType p h).toNat = h.toNat % 2 ^ p.msgTypeBits := by
  rw [hdrType, BitVec.toNat_ofNat]
  rcases msgTypeBits_of_legal hl with hb | hb <;> rw [hb] <;> omega

/-- R47: the capabilities test on the numbers of the two fields. -/
theorem hdrIsCaps_iff {p : DeviceProfile} (hl : p.legal = true) (h : U16) :
    hdrIsCaps p h = true ↔
      h.toNat / 2 ^ p.hdrCountLsb % 8 ≠ 0 ∧ h.toNat % 2 ^ p.msgTypeBits = p.srcCapType.toNat := by
  simp [hdrIsCaps, BitVec.toNat_inj.symm, hdrType_toNat hl]

/-- Settles O27: the step ends with the count and the type of `ARG0[15:0]`, and the capabilities test on them. -/
theorem hdrClassifyResult : Obligations.HdrClassifyResult := by
  refine ⟨rfl, fun s w n t hs hw hn ht => ?_⟩
  obtain ⟨hl, -, -, -, -⟩ := id hs
  have hN : (hdrCount s.profile (low16 w)).toNat = n := by simp [hn]
  have hT : (hdrType s.profile (low16 w)).toNat = t := by simp [hdrType_toNat hl, ht]
  have hK : hdrIsCaps s.profile (low16 w) = true ↔ n ≠ 0 ∧ t = s.profile.srcCapType.toNat := by
    simp [hdrIsCaps_iff hl, hn, ht]
  rw [exec, execHdrClassify, hs.pureCommand_body, withOperand_of hw, endOk_eq_finished]
  simp only [hK, BitVec.ofNat_toNat, ← hN, ← hT]

end Sys2Proof.Machine
end

section
/-!
PROOFS about WAIT_CAPS: polls and their time check as equations (R78), and its micro-steps (R70, R87).
-/

namespace Sys2Proof.Machine

/-! ## A read, the start of a poll and its time check, as equations -/

theorem busRead_fail {reg : Byte} {n : Nat} {k : List Byte → State → Out} {s : State}
    (h : icAnswer s (.read reg n) = .fail) :
    busRead reg n k s = .next (raise .busError (afterBus s (.read reg n))) := busReadOr_fail h

theorem busRead_ok {reg : Byte} {n : Nat} {k : List Byte → State → Out} {s : State} {bytes : List Byte}
    (h : icAnswer s (.read reg n) = .ok bytes) :
    busRead reg n k s = k bytes (afterBus s (.read reg n)) := busReadOr_ok h

theorem bound_eq_none_of {budget : Option Nat} {s : State} (h : s.clkPresent = false ∨ budget = none) :
    bound s budget = none := by
  rcases h with h | h <;> simp [bound, h]

theorem bound_eq_budget {budget : Option Nat} {s : State} (h : s.clkPresent = true) : bound s budget = budget := by
  simp [bound, h]

theorem timeCheck_unbounded {budget : Option Nat} {e : ErrCode} {again : State → State} {s : State}
    (h : bound s budget = none) : timeCheck budget e again s = .next (again s) := by
  rw [timeCheck, h]

theorem timeCheck_exceeded {budget : Option Nat} {e : ErrCode} {again : State → State} {s : State} {limit : Nat}
    (h : bound s budget = some limit) (hx : limit < (clockNow s - s.tStart).toNat) :
    timeCheck budget e again s = .next (raise e (afterNow s)) := by
  simp only [timeCheck, h]
  exact if_pos (decide_eq_true hx)

theorem timeCheck_within {budget : Option Nat} {e : ErrCode} {again : State → State} {s : State} {limit : Nat}
    (h : bound s budget = some limit) (hx : (clockNow s - s.tStart).toNat ≤ limit) :
    timeCheck budget e again s = .next (again (afterNow s)) := by
  simp only [timeCheck, h]
  exact if_neg (Bool.eq_false_iff.mp (decide_eq_false (Nat.not_lt.mpr hx)))

theorem advance_eq_movedTo {s : State} {k : Nat} (hk : s.mstep + 1#8 = BitVec.ofNat 8 k) :
    advance s = movedTo s.seq k s := by
  rw [advance, hk]
  rfl

/-- R78 P0: the start of a poll, followed by the next micro-step, is the entry the statements describe. -/
theorem pollEntry_pollStart {budget : Option Nat} {s : State} {k : Nat} (hk : s.mstep + 1#8 = BitVec.ofNat 8 k) :
    PollEntry budget k s (.next (advance (pollStart budget s))) := by
  rw [advance_eq_movedTo (s := pollStart budget s) (k := k) (by simpa using hk)]
  refine ⟨fun h => ?_, fun hc hb => ?_⟩
  · rw [pollStart, bound_eq_none_of h]
  · obtain ⟨limit, rfl⟩ := Option.ne_none_iff_exists'.mp hb
    simp only [pollStart, bound_eq_budget hc, sampleStart_keeps]
    rfl

/-! ## The micro-steps of WAIT_CAPS -/

/-- R10: `le16` puts its second byte above its first. -/
theorem le16_eq_ofNat (b0 b1 : Byte) : le16 b0 b1 = BitVec.ofNat 16 (b0.toNat + 256 * b1.toNat) := by
  apply BitVec.eq_of_toNat_eq
  rw [le16, BitVec.toNat_append, ← Nat.shiftLeft_add_eq_or_of_lt b0.isLt, Nat.shiftLeft_eq, BitVec.toNat_ofNat]
  omega

/-- R70: four times a three-bit count does not leave the byte. -/
theorem eq_four_mul_count_iff (b : Byte) (c : BitVec 3) : b = 4#8 * c.setWidth 8 ↔ b.toNat = 4 * c.toNat := by
  rw [← BitVec.toNat_inj, BitVec.toNat_mul, BitVec.toNat_setWidth, show (4#8).toNat = 4 from rfl]
  omega

/-- R83: the micro-step of NEGOTIATE in progress. -/
theorem InProgress.negotiate {st : SeqState} {s : State} (h : InProgress 7#4 st s) :
    exec .negotiate s = negotiateStep s := by
  obtain ⟨hl, hf, hb, hc, -⟩ := h
  rw [exec, execNegotiate, underCommand_body hl hf hb hc]

theorem InProgress.waitCaps {s : State} (h : InProgress 7#4 .waitCaps s) : exec .negotiate s = waitCapsStep s := by
  obtain ⟨-, -, -, -, hq⟩ := id h
  rw [h.negotiate, negotiateStep, hq]

/-- R87: naming a micro-step keeps the sequencer state. -/
theorem gotoStep_eq_movedTo {s : State} {st : SeqState} (k : Nat) (hq : s.seq = st) :
    gotoStep k s = movedTo st k s := by
  subst hq
  rfl

/-- R87 W0: the clock sample. -/
theorem waitCapsStep_start {s : State} (hm : s.mstep = 0#8) :
    waitCapsStep s = .next (advance (pollStart (some 500) s)) := by
  rw [waitCapsStep, hm]
  rfl

/-- R87 W1: a message goes on to its header, none to the time check. -/
theorem waitCapsStep_flag {s : State} {b : Byte} (hm : s.mstep = 1#8)
    (hb : icAnswer s (.read s.profile.regPrtStatus 1) = .ok [b]) :
    waitCapsStep s = .next (gotoStep (if b &&& s.profile.msgReceivedMask = 0#8 then 4 else 2)
      (afterBus s (.read s.profile.regPrtStatus 1))) := by
  simp only [waitCapsStep, hm, BitVec.reduceToNat, busRead_ok hb, byte0, List.getD_cons_zero, afterBus_keeps]
  split <;> rfl

/-- R87 W2: the header is stored whatever it is; only a capabilities header goes on to the byte count. -/
theorem waitCapsStep_header {s : State} {b0 b1 : Byte} (hm : s.mstep = 2#8)
    (hb : icAnswer s (.read s.profile.regRxHeader 2) = .ok [b0, b1]) :
    waitCapsStep s = .next (gotoStep (if hdrIsCaps s.profile (le16 b0 b1) = true then 3 else 4)
      { afterBus s (.read s.profile.regRxHeader 2) with rxHdr := some (le16 b0 b1) }) := by
  simp only [waitCapsStep, hm, BitVec.reduceToNat, busRead_ok hb, byte0, List.getD_cons_zero, List.getD_cons_succ,
    afterBus_keeps]
  split <;> rfl

/-- R70, R87 W3: the byte count is four times the object count, or the command ends. -/
theorem waitCapsStep_count {s : State} {h : U16} {b : Byte} (hm : s.mstep = 3#8) (hh : s.rxHdr = some h)
    (hb : icAnswer s (.read s.profile.regRxByteCnt 1) = .ok [b]) :
    waitCapsStep s = .next
      (if b.toNat = 4 * (hdrCount s.profile h).toNat then
        goto .capture { afterBus s (.read s.profile.regRxByteCnt 1) with
          capCount := some ((hdrCount s.profile h).setWidth 8) }
      else raise .payloadSizeMismatch (afterBus s (.read s.profile.regRxByteCnt 1))) := by
  simp only [waitCapsStep, hm, BitVec.reduceToNat, withOperand_of hh, busRead_ok hb, byte0, List.getD_cons_zero,
    afterBus_keeps, ne_eq, eq_four_mul_count_iff, ite_not]
  split <;> rfl

/-- R87 WT: the time check, which goes back to the flag read. -/
theorem waitCapsStep_time {s : State} (hm : s.mstep = 4#8) :
    waitCapsStep s = timeCheck (some 500) .timeout (gotoStep 1) s := by
  rw [waitCapsStep, hm]
  rfl

/-- R28: the reads of W1 to W3 end the command when the bus fails. -/
theorem waitCapsStep_busError {s : State} {reg : Byte} {n : Nat}
    (hreg : s.mstep = 1#8 ∧ reg = s.profile.regPrtStatus ∧ n = 1 ∨
      s.mstep = 2#8 ∧ reg = s.profile.regRxHeader ∧ n = 2 ∨
      s.mstep = 3#8 ∧ reg = s.profile.regRxByteCnt ∧ n = 1 ∧ ∃ h, s.rxHdr = some h)
    (ha : icAnswer s (.read reg n) = .fail) :
    waitCapsStep s = .next (failedWith 1#4 (afterBus s (.read reg n))) := by
  rcases hreg with ⟨hm, rfl, rfl⟩ | ⟨hm, rfl, rfl⟩ | ⟨hm, rfl, rfl, h, hh⟩ <;> rw [waitCapsStep, hm]
  · exact busRead_fail ha
  · exact busRead_fail ha
  · exact (withOperand_of hh).trans (busRead_fail ha)

/-- Settles O34: one micro-step at a time. The profile's fields of the header are its numbers (R46), and four times
the object count fits the byte it is compared with (R70). -/
theorem waitCaps : Obligations.WaitCaps := by
  intro s hs
  obtain ⟨hl, -, -, -, hq⟩ := id hs
  rw [hs.waitCaps]
  refine ⟨fun hm => ?_, ?_, ?_, ?_, fun hm => ?_⟩
  · rw [waitCapsStep_start hm]
    exact pollEntry_pollStart (by rw [hm]; rfl)
  · rintro hm _ rfl
    refine ⟨waitCapsStep_busError (by simp [hm]), fun b hb => ?_⟩
    rw [waitCapsStep_flag hm hb, gotoStep_eq_movedTo _ (by simpa using hq)]
    exact ⟨fun hz => by rw [if_pos hz], fun hz => by rw [if_neg hz]⟩
  · rintro hm _ rfl
    refine ⟨waitCapsStep_busError (by simp [hm]), fun b0 b1 hb h hh => ?_⟩
    rw [← le16_eq_ofNat] at hh
    subst hh
    rw [waitCapsStep_header hm hb, gotoStep_eq_movedTo _ (by simpa using hq), ← hdrIsCaps_iff hl]
    exact ⟨fun hc => by rw [if_pos hc], fun hc => by rw [if_neg hc]⟩
  · rintro hm h n _ hh rfl rfl
    refine ⟨waitCapsStep_busError (by simp [hm, hh]), fun b hb => ?_⟩
    rw [waitCapsStep_count hm hh hb, ← BitVec.ofNat_toNat, hdrCount_toNat]
    exact ⟨fun hne => by rw [if_neg hne]; rfl, fun heq => by rw [if_pos heq]; rfl⟩
  · rw [waitCapsStep_time hm]
    refine ⟨fun hc => ?_, fun hc => ⟨fun hx => ?_, fun hx => ?_⟩⟩
    · rw [timeCheck_unbounded (bound_eq_none_of (.inl hc)), gotoStep_eq_movedTo 1 hq]
    · rw [timeCheck_exceeded (bound_eq_budget hc) hx]
      rfl
    · rw [timeCheck_within (bound_eq_budget hc) hx, gotoStep_eq_movedTo 1 (by simpa using hq)]

end Sys2Proof.Machine
end

section
/-!
PROOFS about the states of NEGOTIATE around WAIT_CAPS: the presence read (R81, R82), the two one-byte polls (R78, R84,
R85), the soft reset (R80, R86), the capture (R35, R88) and the commit (R36, R90).
-/

namespace Sys2Proof.Machine

/-! ## The presence read -/

/-- R18: the sequencer state of a command in progress. -/
theorem InProgress.seq_eq {opc : BitVec 4} {st : SeqState} {s : State} (h : InProgress opc st s) : s.seq = st := by
  obtain ⟨-, -, -, -, hq⟩ := h
  exact hq

/-- R82: the micro-step of PRESENCE in progress. -/
theorem InProgress.presence {s : State} (h : InProgress 6#4 .presence s) :
    exec .presence s = presenceStep endOk s := by
  obtain ⟨hl, hf, hb, hc, hq⟩ := h
  rw [exec, execPresence, underCommand_body hl hf hb hc, hq]

/-- R81: a bus failure is `NotPresent`. -/
theorem presenceStep_busFail {k : State → State} {s : State}
    (ha : icAnswer s (.read s.profile.regDeviceId 1) = .fail) :
    presenceStep k s = .next (failedWith 2#4 (afterBus s (.read s.profile.regDeviceId 1))) :=
  busReadOr_fail ha

/-- R81: the ID read is in `RES0` whether or not it is in `ID_SET`. -/
theorem presenceStep_id {k : State → State} {s : State} {b : Byte}
    (ha : icAnswer s (.read s.profile.regDeviceId 1) = .ok [b]) :
    presenceStep k s = .next ((if b ∈ s.profile.idSet then k else failedWith 2#4)
      { afterBus s (.read s.profile.regDeviceId 1) with res0 := BitVec.ofNat 32 b.toNat }) := by
  simp only [presenceStep, busReadOr_ok ha, byte0, List.getD_cons_zero, afterBus_keeps, BitVec.ofNat_toNat]
  split <;> rfl

/-- Settles O30: PRESENCE and NEGOTIATE take the same read, and go on differently only after an ID in the set. -/
theorem presenceOutcomes : Obligations.PresenceOutcomes := by
  refine ⟨rfl, ?_⟩
  rintro s opc i _ (⟨rfl, rfl⟩ | ⟨rfl, rfl⟩) hs rfl
  · rw [hs.presence]
    refine ⟨presenceStep_busFail, fun b hb => ?_⟩
    rw [presenceStep_id hb]
    exact ⟨fun hout => by rw [if_neg hout], fun hin _ => by rw [if_pos hin, endOk_eq_finished], nofun⟩
  · have hstep : exec .negotiate s = presenceStep (goto .waitAttach) s := by rw [hs.negotiate, negotiateStep, hs.seq_eq]
    rw [hstep]
    refine ⟨presenceStep_busFail, fun b hb => ?_⟩
    rw [presenceStep_id hb]
    exact ⟨fun hout => by rw [if_neg hout], nofun, fun hin _ => by rw [if_pos hin]; rfl⟩

/-! ## The polls of WAIT_ATTACH and SINK_READY_WAIT -/

/-- R78 P1: one iteration of a poll is the one the statements describe. The read leaves the clock's presence and the
start sample, so that the time check is the one of the state before it. -/
theorem pollResult_pollRead {reg : Byte} {done : Byte → Bool} {satisfied : Byte → Prop} {budget : Option Nat}
    {e : ErrCode} {k : State → State} {s : State} (hd : ∀ b, done b = true ↔ satisfied b) :
    PollResult (.read reg 1) satisfied budget (errNumber e) k s (pollRead reg done budget e k s) := by
  refine ⟨busRead_fail, fun b hb => ?_⟩
  have hread : pollRead reg done budget e k s =
      if done b = true then .next (k (afterBus s (.read reg 1)))
      else timeCheck budget e id (afterBus s (.read reg 1)) := busRead_ok hb
  rw [hread, ← hd]
  refine ⟨fun hsat => if_pos hsat, fun hunsat hnone => ?_, fun hunsat hclk limit hlimit => ?_⟩
  · have hbound : bound (afterBus s (.read reg 1)) budget = none := bound_eq_none_of hnone
    rw [if_neg hunsat]
    exact timeCheck_unbounded hbound
  · have hbound : bound (afterBus s (.read reg 1)) budget = some limit := (bound_eq_budget hclk).trans hlimit
    rw [if_neg hunsat]
    exact ⟨timeCheck_exceeded hbound, timeCheck_within hbound⟩

/-- Settles O31: the poll of the attached bit; `ON_INTERRUPT`, which the read leaves, chooses the next state. -/
theorem waitAttach : Obligations.WaitAttach := by
  intro s hs
  have hstep : exec .negotiate s = waitAttachStep s := by rw [hs.negotiate, negotiateStep, hs.seq_eq]
  rw [hstep]
  refine ⟨fun hm => ?_, fun hm => ?_⟩ <;> rw [waitAttachStep, hm]
  · exact pollEntry_pollStart (by rw [hm]; rfl)
  · exact pollResult_pollRead (by simp)

/-- Settles O32: the poll of the sink-ready state. -/
theorem sinkReadyWait : Obligations.SinkReadyWait := by
  intro s hs
  have hstep : exec .negotiate s = sinkReadyStep s := by rw [hs.negotiate, negotiateStep, hs.seq_eq]
  rw [hstep]
  refine ⟨fun hm => ?_, fun hm => ?_⟩ <;> rw [sinkReadyStep, hm]
  · exact pollEntry_pollStart (by rw [hm]; rfl)
  · exact pollResult_pollRead (by simp)

/-! ## The soft reset -/

/-- R29: a write, followed by `k`, leaves what the statements describe when `k` leaves it. -/
theorem writeResult_busWrite {reg : Byte} {w : List Byte} {k : State → Out} {leave : State → State} {s : State}
    (hk : k (afterBus s (.write reg w)) = .next (leave (afterBus s (.write reg w)))) :
    WriteResult (.write reg w) leave s (busWrite reg w k s) :=
  ⟨busWrite_fail, fun h => (busWrite_ok h).trans hk⟩

/-- R80 S0: the header, then the next micro-step of the same state. -/
theorem softResetStep_header {k : State → State} {s : State} {st : SeqState} (hq : s.seq = st)
    (hm : s.mstep = 0#8) :
    WriteResult (.write s.profile.regTxHeader [s.profile.softResetHdr]) (movedTo st 1) s (softResetStep k s) := by
  subst hq
  rw [softResetStep, hm]
  refine writeResult_busWrite ?_
  rw [advance_eq_movedTo (k := 1) (by simp [hm])]
  rfl

/-- R80 S1: the command, then what follows the soft reset. -/
theorem softResetStep_command {k leave : State → State} {s : State} (hm : s.mstep = 1#8)
    (hk : ∀ req, k (afterBus s req) = leave (afterBus s req)) :
    WriteResult (.write s.profile.regPdCmd [s.profile.pdCmdSend]) leave s (softResetStep k s) := by
  rw [softResetStep, hm]
  exact writeResult_busWrite (congrArg _ (hk _))

/-- Settles O33: the soft reset, followed by WAIT_CAPS. -/
theorem sendSoftReset : Obligations.SendSoftReset := by
  intro s hs
  have hstep : exec .negotiate s = softResetStep (goto .waitCaps) s := by rw [hs.negotiate, negotiateStep, hs.seq_eq]
  rw [hstep]
  exact ⟨softResetStep_header hs.seq_eq, fun hm => softResetStep_command hm fun _ => rfl⟩

/-! ## The capture -/

/-- R76: a count of at most seven objects is held by the three bits the block reads. -/
theorem objectCount_eq_toNat {n : Byte} (h : n.toNat ≤ 7) : objectCount n = n.toNat := by
  simp only [objectCount, BitVec.extractLsb'_toNat, Nat.shiftRight_zero]
  omega

/-- Settles O35: the read is as long as the block write that stores it, so that the write covers exactly those
bytes. -/
theorem captureStoresTheBytes : Obligations.CaptureStoresTheBytes := by
  rintro s n _ hs hn - h7 rfl
  have hstep : exec .negotiate s = busRead s.profile.regRxData (4 * n.toNat)
      (fun bytes t => .next (goto .select { t with mem := Memory.setBytes t.mem capBase bytes })) s := by
    rw [hs.negotiate, negotiateStep, hs.seq_eq, ← objectCount_eq_toNat h7]
    exact withOperand_of hn
  rw [hstep]
  refine ⟨busRead_fail, fun bytes hb => ⟨Memory.setBytes s.mem capBase bytes, busRead_ok hb, fun a => ?_⟩⟩
  rw [Memory.get_setBytes, icAnswer_read_length hb, capBase]

/-! ## The commit -/

/-- R36: the bytes of a word are its quotients by the powers of 256, least significant first. -/
theorem bytesOf32_eq_ofNat (w : U32) :
    bytesOf32 w = [BitVec.ofNat 8 w.toNat, BitVec.ofNat 8 (w.toNat / 2 ^ 8), BitVec.ofNat 8 (w.toNat / 2 ^ 16),
      BitVec.ofNat 8 (w.toNat / 2 ^ 24)] := by
  simp only [bytesOf32, BitVec.extractLsb', Nat.shiftRight_eq_div_pow, pow_zero, Nat.div_one]

/-- R90: the results of NEGOTIATE are the selector's registers of the state before the last write. -/
theorem negotiateEnd_afterBus (s : State) (req : BusReq) :
    negotiateEnd (afterBus s req) = finished { afterBus s req with
      res0 := s.selWord, res1 := s.selBestP, res2 := BitVec.ofNat 32 s.selBestIdx.toNat } := by
  rw [BitVec.ofNat_toNat]
  rfl

/-- Settles O37: one write in COMMIT, and in RENEGOTIATE the soft reset, followed by the end with the results. -/
theorem commitAndRenegotiate : Obligations.CommitAndRenegotiate := by
  intro s
  have hrenegotiate (hs : InProgress 7#4 .renegotiate s) :
      exec .negotiate s = softResetStep negotiateEnd s := by rw [hs.negotiate, negotiateStep, hs.seq_eq]
  refine ⟨fun hs => ?_, fun hs hm => ?_, fun hs hm => ?_⟩
  · have hstep : exec .negotiate s = commitStep s := by rw [hs.negotiate, negotiateStep, hs.seq_eq]
    rw [hstep, commitStep, bytesOf32_eq_ofNat]
    exact writeResult_busWrite rfl
  · rw [hrenegotiate hs]
    exact softResetStep_header hs.seq_eq hm
  · rw [hrenegotiate hs]
    exact softResetStep_command hm (negotiateEnd_afterBus s)

end Sys2Proof.Machine
end

section
/-!
PROOFS about the NVM sequencer: the image a buffer holds (R21), and the byte compare (R130).
-/

namespace Sys2Proof.Machine

/-! ## Images byte by byte -/

/-- R21: a buffer that holds an image reads as that image. -/
theorem HoldsImage.bufferImage_eq {m : Memory} {base : Nat} {img : Image} (h : HoldsImage m base img) :
    bufferImage m base = some img := by
  have hbytes : Memory.getBytes m base 40 = some img.toList :=
    Memory.getBytes_eq_some.2 ⟨img.length_toList, fun j hj => (h j hj).trans Vector.getElem?_toList.symm⟩
  rw [bufferImage, hbytes, Option.map_some, imageOf_toList]

/-- R21: two images are equal exactly when each of their forty bytes is. -/
theorem image_eq_iff {v x : Image} : v = x ↔ ∀ j < 40, v[j]? = x[j]? := by
  refine ⟨fun h j _ => by rw [h], fun h => Vector.ext fun j hj => ?_⟩
  simpa [hj] using h j hj

/-! ## The byte compare -/

/-- R127 to R130: the micro-step of NVM_FLASH in progress. -/
theorem InProgress.nvmFlash {st : SeqState} {s : State} (h : InProgress 10#4 st s) :
    exec .nvmFlash s = flashStep s := by
  obtain ⟨hl, hf, hb, hc, -⟩ := h
  rw [exec, execNvmFlash, underCommand_body hl hf hb hc]

/-- R130: with both buffers written, equality of the two images chooses the end. -/
theorem compareStep_of {s : State} {x v : Image} (hx : HoldsImage s.mem scratchBase x)
    (hv : HoldsImage s.mem verifyBase v) :
    compareStep s = .next (if v = x then finished s else failedWith 8#4 s) := by
  rw [compareStep, withOperand_of hv.bufferImage_eq, withOperand_of hx.bufferImage_eq]
  split <;> rfl

/-- Settles O52: the step compares the two images, and a byte that differs is what tells them apart. -/
theorem compareIsByteExact : Obligations.CompareIsByteExact := by
  intro s x v hs hx hv
  have hstep : exec .nvmFlash s = compareStep s := by rw [hs.nvmFlash, flashStep, hs.seq_eq]
  rw [hstep, compareStep_of hx hv]
  refine ⟨fun heq => ?_, fun ⟨j, hj, hne⟩ => ?_⟩
  · rw [if_pos (image_eq_iff.2 heq)]
  · rw [if_neg fun h => hne (image_eq_iff.1 h j hj)]

end Sys2Proof.Machine
end

section
/-!
PROOFS about the illegal space of the command word (R54, R138).
-/

namespace Sys2Proof.Machine

/-! ## The bytes of the illegal space -/

/-- R54: the two fields of the word in natural numbers: `OPC` is the remainder by 16, `RSV` the quotient. -/
theorem illegalWord_iff {w : Byte} :
    illegalWord w = true ↔ 11 ≤ w.toNat % 16 ∨ w.toNat % 16 = 0 ∨ 1 ≤ w.toNat / 16 := by
  have hopc : (w.extractLsb' 0 4).toNat = w.toNat % 16 := by simp
  have hrsv : (w.extractLsb' 4 4).toNat = w.toNat / 16 := by
    rw [BitVec.extractLsb'_toNat, Nat.shiftRight_eq_div_pow]
    omega
  simp only [illegalWord, Bool.or_eq_true, bne_iff_ne, beq_iff_eq, decide_eq_true_eq, ne_eq, BitVec.le_def,
    ← BitVec.toNat_inj, hopc, hrsv, BitVec.toNat_ofNat, Nat.reducePow, Nat.reduceMod]
  omega

/-- R53: the opcodes the opcode map leaves out. -/
theorem decodeOpc_eq_none : ∀ opc : BitVec 4, opc = 0#4 ∨ 11#4 ≤ opc → decodeOpc opc = none := by decide

/-- R54: a byte of the illegal space decodes to the command that keeps it: `RSV` alone decides, or `OPC` is outside
the opcode map. -/
theorem decodeByte_of_illegalWord {w : Byte} (h : illegalWord w = true) : decodeByte w = .illegalOpc w := by
  by_cases hrsv : w.extractLsb' 4 4 = 0#4
  · have hopc : w.extractLsb' 0 4 = 0#4 ∨ 11#4 ≤ w.extractLsb' 0 4 := by simpa [illegalWord, hrsv] using h
    rw [decodeByte, if_pos hrsv, decodeOpc_eq_none _ hopc, Option.getD_none]
  · rw [decodeByte, if_neg hrsv]

/-! ## The step of an illegal word -/

/-- R138: at an accepting block the command raises `IllegalCommand`. -/
theorem Issuable.illegalOpc {s : State} (h : Issuable s) (w : Byte) :
    exec (.illegalOpc w) s = .next (raise .illegalCommand s) := by
  obtain ⟨hl, hf, hb⟩ := h
  simp [exec, execIllegalOpc, hl, hf, hb]

/-- R53: the byte of a write of `CMD` is the value's remainder by 256. -/
theorem commandByte_eq {v : U32} {w : Byte} (h : v.toNat % 256 = w.toNat) : commandByte v = w :=
  BitVec.eq_of_toNat_eq (by simpa [commandByte] using h)

/-- Settles O19: the byte is of the illegal space, so it decodes to the command that keeps it, and the write of `CMD`
runs that command, which raises `IllegalCommand`. (The name `illegalWord` is the model's predicate.) -/
theorem illegalWord_endsInFailed : Obligations.IllegalWord := by
  rintro s w hs hw t rfl
  have hwf : illegalWord w = true := illegalWord_iff.2 hw
  have hd : decode [w] = .ok (.illegalOpc w, []) := by rw [decode, decodeByte_of_illegalWord hwf]
  refine ⟨hwf, hd, hs.illegalOpc w, fun v hv => ?_⟩
  have ⟨hl, _, hb⟩ := hs
  rw [← commandByte_eq hv] at hd
  calc hostWrites 0x00#8 v s
    _ = hostWrite 0x00#8 v s := hostWrites_eq 0x00#8 v hl
    _ = exec (.illegalOpc (commandByte v)) s := hostWrite_command hb hd
    _ = .next (raise .illegalCommand s) := hs.illegalOpc _

end Sys2Proof.Machine
end

section
/-!
PROOFS about the command word: the decoder inverts the encoder on the well-formed commands, and every byte is a word
(R51, R53, R54).
-/

namespace Sys2Proof.Machine

/-- R53, R54: the decoder gives back the command the encoder wrote. -/
theorem decodeByte_encodeByte {i : Instr} (h : i.wf = true) : decodeByte (encodeByte i) = i := by
  cases i with
  | illegalOpc w => exact decodeByte_of_illegalWord h
  | _ => rfl

/-- Settles O1: one byte is read, and it decodes to the command it encodes. -/
theorem decodeOfEncode : Obligations.DecodeOfEncode := by
  intro i rest h
  calc decode (encode i ++ rest)
    _ = .ok (decodeByte (encodeByte i), rest) := rfl
    _ = .ok (i, rest) := by rw [decodeByte_encodeByte h]

/-- R53, R54: every byte is the word of a well-formed command, which has no opcode exactly for the illegal space. -/
theorem exists_encodeByte (w : Byte) :
    ∃ i : Instr, i.wf = true ∧ encodeByte i = w ∧ (opcodeOf i = none ↔ illegalWord w = true) := by
  by_cases h : illegalWord w = true
  · exact ⟨.illegalOpc w, h, rfl, by simp [opcodeOf, h]⟩
  · have hrange : 1 ≤ w.toNat ∧ w.toNat ≤ 10 := by
      rw [illegalWord_iff] at h
      omega
    have command (i : Instr) (hi : encodeByte i = w) (hwf : i.wf = true) (ho : opcodeOf i ≠ none) :
        ∃ i : Instr, i.wf = true ∧ encodeByte i = w ∧ (opcodeOf i = none ↔ illegalWord w = true) :=
      ⟨i, hwf, hi, iff_of_false ho h⟩
    obtain ⟨h1, h10⟩ := hrange
    have hw (k : Nat) (hk : w.toNat = k) : BitVec.ofNat 8 k = w := by
      rw [← hk, BitVec.ofNat_toNat, BitVec.setWidth_eq]
    interval_cases w.toNat
    · exact command .pdoDecode (hw _ rfl) rfl nofun
    · exact command .pdoEncode (hw _ rfl) rfl nofun
    · exact command .pdoPower (hw _ rfl) rfl nofun
    · exact command .hdrClassify (hw _ rfl) rfl nofun
    · exact command .pdoSelect (hw _ rfl) rfl nofun
    · exact command .presence (hw _ rfl) rfl nofun
    · exact command .negotiate (hw _ rfl) rfl nofun
    · exact command .nvmRead (hw _ rfl) rfl nofun
    · exact command .nvmPatch (hw _ rfl) rfl nofun
    · exact command .nvmFlash (hw _ rfl) rfl nofun

/-- Settles O2: the byte is the word of some well-formed command, and decoding it tells which. -/
theorem everyByteIsOneCommand : Obligations.EveryByteIsOneCommand := by
  intro w rest
  obtain ⟨i, hwf, rfl, hnone⟩ := exists_encodeByte w
  refine ⟨i, decodeOfEncode i rest hwf, hwf, fun j hj => ⟨fun he => ?_, fun he => by rw [he]; rfl⟩, ?_⟩
  · have hbyte : encodeByte j = encodeByte i := List.singleton_injective he
    rw [← decodeByte_encodeByte hj, hbyte, decodeByte_encodeByte hwf]
  · rw [hnone, illegalWord_iff]
    omega

/-- Settles O3: each of the thirteen words is the one the encoder writes for its command. -/
theorem opcodeMapWords : Obligations.OpcodeMapWords :=
  have word (i : Instr) (h : i.wf = true) : decode (encode i) = .ok (i, []) := decodeOfEncode i [] h
  ⟨word .pdoDecode rfl, word .pdoEncode rfl, word .pdoPower rfl, word .hdrClassify rfl, word .pdoSelect rfl,
    word .presence rfl, word .negotiate rfl, word .nvmRead rfl, word .nvmPatch rfl, word .nvmFlash rfl,
    word (.illegalOpc 0x00#8) rfl, word (.illegalOpc 0x0B#8) rfl, word (.illegalOpc 0x11#8) rfl⟩

end Sys2Proof.Machine
end

section
/-!
PROOFS about the machine's invariant: reset meets it, and every step of a legal profile answers a next state that meets
it (R16 to R19, R122, R128, R135, R140). `Active` is what the updates of a micro-step keep, whatever the position; from
it the two ends of a command and each move of the sequencer give the invariant back.
-/

namespace Sys2Proof.Machine

/-- Settles O57: the block is idle, with no buffer byte written. -/
theorem resetSatisfiesInvariant : Obligations.ResetSatisfiesInvariant := fun p =>
  { mem := rfl
    okBit := by simp [State.resetWith]
    errCode := by simp [State.resetWith]
    busyErr := nofun
    position := by simp [Positioned, State.resetWith]
    faultBusy := nofun
    sect := by simp [State.resetWith]
    capture := nofun
    header := nofun }

/-! ## What a command in progress keeps -/

/-- A command is in progress in a block that is not faulted, with the status of one (R16, R56), the buffers in their
form (log 21) and a sector in `SECT` (R122). -/
structure Active (s : State) : Prop where
  busy : s.busy = true
  fault : s.fault = false
  err : s.err = 0#4
  ok : s.ok = false
  mem : Memory.wf s.mem = true
  sect : s.sect.toNat ≤ 4

/-- R18: the position of a command in progress. -/
theorem Invariant.busy_position {s : State} (h : Invariant s) (hb : s.busy = true) :
    s.curCmd ∈ commandsIn s.seq ∧ s.mstep.toNat < microSteps s.seq := by
  simpa [Positioned, hb] using h.position

theorem Invariant.active {s : State} (h : Invariant s) (hb : s.busy = true) (hf : s.fault = false) : Active s where
  busy := hb
  fault := hf
  err := h.busyErr hb
  ok := by
    have hpos := (h.busy_position hb).1
    by_contra hok
    obtain ⟨-, hdone⟩ := h.okBit.1 (by simpa using hok)
    simp [hdone, commandsIn] at hpos
  mem := h.mem
  sect := h.sect

namespace Active

variable {s : State}

theorem afterBus (h : Active s) (req : BusReq) : Active (afterBus s req) :=
  ⟨h.busy, h.fault, h.err, h.ok, h.mem, h.sect⟩

theorem afterNow (h : Active s) : Active (afterNow s) := by
  constructor <;> simp [h.busy, h.fault, h.err, h.ok, h.mem, h.sect]

theorem pollStart (h : Active s) (budget : Option Nat) : Active (pollStart budget s) := by
  constructor <;> simp [h.busy, h.fault, h.err, h.ok, h.mem, h.sect]

theorem withMem (h : Active s) {m : Memory} (hm : Memory.wf m = true) : Active { s with mem := m } :=
  ⟨h.busy, h.fault, h.err, h.ok, hm, h.sect⟩

/-- R33: the bytes of a sector lie in their buffer. -/
theorem storeSect (h : Active s) {base : Nat} {bytes : List Byte} (hbase : base = imgBase ∨ base = verifyBase)
    (hn : bytes.length = 8) : Active (storeSect base bytes s) := by
  have hsect := h.sect
  refine h.withMem (Memory.wf_setBytes _ h.mem ?_ ?_)
  · rcases hbase with rfl | rfl <;> simp only [capBase, imgBase, verifyBase] <;> omega
  · rcases hbase with rfl | rfl <;> simp only [bufEnd, imgBase, verifyBase, hn] <;> omega

/-! ## The ends and moves of a command -/

/-- R57: the successful end. -/
theorem endOk (h : Active s) : Invariant (endOk s) where
  mem := h.mem
  okBit := by simp
  errCode := by simp
  busyErr := nofun
  position := by simp [Positioned]
  faultBusy := fun hf => by simp [h.fault] at hf
  sect := h.sect
  capture := nofun
  header := nofun

end Active

/-- R135: the codes that are written. -/
theorem errNumber_range (e : ErrCode) : (errNumber e).toNat ≤ 10 ∧ errNumber e ≠ 5#4 := by
  cases e <;> decide

/-- R137: raising an error at a block that is not faulted. -/
theorem invariant_raise {s : State} (e : ErrCode) (hf : s.fault = false) (hm : Memory.wf s.mem = true)
    (hs : s.sect.toNat ≤ 4) : Invariant (raise e s) where
  mem := hm
  okBit := by simp
  errCode := errNumber_range e
  busyErr := nofun
  position := by simp [Positioned]
  faultBusy := fun h => by simp [hf] at h
  sect := hs
  capture := nofun
  header := nofun

namespace Active

variable {s : State}

theorem raise (h : Active s) (e : ErrCode) : Invariant (raise e s) := invariant_raise e h.fault h.mem h.sect

/-- R19: a command in progress at a position its rule lists. -/
theorem invariant (h : Active s) (hcmd : s.curCmd ∈ commandsIn s.seq) (hm : s.mstep.toNat < microSteps s.seq)
    (hcap : s.seq = .capture → ∃ n : Byte, s.capCount = some n ∧ 1 ≤ n.toNat ∧ n.toNat ≤ 7)
    (hhdr : s.seq = .waitCaps → s.mstep = 3#8 → ∃ x : U16, s.rxHdr = some x ∧ hdrIsCaps s.profile x = true) :
    Invariant s where
  mem := h.mem
  okBit := by
    have hdone : s.seq ≠ .done := fun hd => by simp [hd, commandsIn] at hcmd
    simp [h.ok, hdone]
  errCode := by simp [h.err]
  busyErr := fun _ => h.err
  position := by simp [Positioned, h.busy, hcmd, hm]
  faultBusy := fun _ => h.busy
  sect := h.sect
  capture := fun _ => hcap
  header := fun _ => hhdr

/-- R19: the move to another sequencer state; CAPTURE is entered with a count. -/
theorem goto (h : Active s) {st : SeqState} (hcmd : s.curCmd ∈ commandsIn st)
    (hcap : st = .capture → ∃ n : Byte, s.capCount = some n ∧ 1 ≤ n.toNat ∧ n.toNat ≤ 7) :
    Invariant (goto st s) := by
  have hpos : 0 < microSteps st := by cases st <;> simp [commandsIn] at hcmd <;> decide
  exact Active.invariant ⟨h.busy, h.fault, h.err, h.ok, h.mem, h.sect⟩ hcmd hpos hcap nofun

end Active

/-- R140: a fault at a busy block. -/
theorem Invariant.setFault {s : State} (h : Invariant s) (hb : s.busy = true) : Invariant (setFault s) :=
  { h with faultBusy := fun _ => hb }

end Sys2Proof.Machine
end

section
/-!
PROOFS that every step keeps the invariant: from a state that meets it, each command answers a next state that meets it,
and so does each input of the outside world.
-/

namespace Sys2Proof.Machine

/-! ## Updates that leave the position -/

theorem Invariant.afterBus {s : State} (h : Invariant s) (req : BusReq) : Invariant (afterBus s req) :=
  ⟨h.mem, h.okBit, h.errCode, h.busyErr, h.position, h.faultBusy, h.sect, h.capture, h.header⟩

theorem Invariant.afterNow {s : State} (h : Invariant s) : Invariant (afterNow s) := by
  unfold Machine.afterNow
  split
  · exact ⟨h.mem, h.okBit, h.errCode, h.busyErr, h.position, h.faultBusy, h.sect, h.capture, h.header⟩
  · exact ⟨h.mem, h.okBit, h.errCode, h.busyErr, h.position, h.faultBusy, h.sect, h.capture, h.header⟩

theorem Invariant.withInputs {s : State} (h : Invariant s) (inputs : List Input) :
    Invariant { s with inputs := inputs } :=
  ⟨h.mem, h.okBit, h.errCode, h.busyErr, h.position, h.faultBusy, h.sect, h.capture, h.header⟩

theorem Active.withResults {s : State} (h : Active s) (r0 r1 r2 : U32) :
    Active { s with res0 := r0, res1 := r1, res2 := r2 } := ⟨h.busy, h.fault, h.err, h.ok, h.mem, h.sect⟩

theorem Active.keepSelection {s : State} (h : Active s) (sel : Selection) : Active (keepSelection sel s) :=
  ⟨h.busy, h.fault, h.err, h.ok, h.mem, h.sect⟩

theorem Active.withSect {s : State} (h : Active s) {n : BitVec 3} (hn : n.toNat ≤ 4) : Active { s with sect := n } :=
  ⟨h.busy, h.fault, h.err, h.ok, h.mem, hn⟩

theorem InProgress.active {opc : BitVec 4} {st : SeqState} {s : State} (hs : InProgress opc st s) (h : Invariant s) :
    Active s := by
  obtain ⟨-, hf, hb, -, -⟩ := hs
  exact h.active hb hf

theorem InProgress.curCmd_eq {opc : BitVec 4} {st : SeqState} {s : State} (hs : InProgress opc st s) :
    s.curCmd = opc := by
  obtain ⟨-, -, -, hc, -⟩ := hs
  exact hc

theorem InProgress.mstep_lt {opc : BitVec 4} {st : SeqState} {s : State} (hs : InProgress opc st s)
    (h : Invariant s) : s.mstep.toNat < microSteps st := by
  obtain ⟨-, -, hb, -, rfl⟩ := hs
  exact (h.busy_position hb).2

/-! ## Moves inside a sequencer state -/

theorem microSteps_le (st : SeqState) : microSteps st ≤ 50 := by cases st <;> decide

/-- R19: the next micro-step of the same state, if its rule lists one. -/
theorem Active.advance {s : State} (h : Active s) (hcmd : s.curCmd ∈ commandsIn s.seq)
    (hm : s.mstep.toNat + 1 < microSteps s.seq) (hhdr : s.seq = .waitCaps → s.mstep ≠ 2#8) :
    Invariant (advance s) := by
  have hle := microSteps_le s.seq
  have hnext : (s.mstep + 1#8).toNat = s.mstep.toNat + 1 := BitVec.toNat_add_of_lt (by simp; omega)
  refine Active.invariant ⟨h.busy, h.fault, h.err, h.ok, h.mem, h.sect⟩ hcmd ?_ ?_ ?_
  · simpa [hnext] using hm
  · intro hq
    simp only [advance_keeps] at hq
    simp [hq, microSteps] at hm
  · intro hq h3
    refine absurd ?_ (hhdr hq)
    simp only [advance_sets] at h3
    bv_omega

/-- R87: the moves inside WAIT_CAPS; the byte-count check follows a capabilities header. -/
theorem Active.gotoStep {s : State} (h : Active s) (hc : s.curCmd = 7#4) (hq : s.seq = .waitCaps) {k : Nat}
    (hk : k < 5) (hhdr : k = 3 → ∃ x : U16, s.rxHdr = some x ∧ hdrIsCaps s.profile x = true) :
    Invariant (gotoStep k s) := by
  have hmod : k % 256 = k := Nat.mod_eq_of_lt (by omega)
  refine Active.invariant ⟨h.busy, h.fault, h.err, h.ok, h.mem, h.sect⟩ ?_ ?_ ?_ ?_
  · simp [hc, hq, commandsIn]
  · simpa [hq, microSteps, hmod] using hk
  · simp [hq]
  · intro _ h3
    refine hhdr ?_
    simpa [hmod] using congrArg BitVec.toNat h3

/-- R78 P1: a poll that is not satisfied stays where it is. -/
theorem post_pollRead_invariant {reg : Byte} {done : Byte → Bool} {budget : Option Nat} {e : ErrCode}
    {k : State → State} {s : State} (h : Invariant s) (ha : Active s)
    (hk : Invariant (k (afterBus s (.read reg 1)))) : Post Invariant (pollRead reg done budget e k s) :=
  post_pollRead ((ha.afterBus _).raise _) hk (h.afterBus _) (h.afterBus _).afterNow ((ha.afterBus _).afterNow.raise _)

/-! ## Issue and operands -/

/-- R56: the issue of a command into its entry state. -/
theorem Invariant.issue {s : State} (h : Invariant s) (hf : s.fault = false) {opc : BitVec 4} {st : SeqState}
    (hcmd : opc ∈ commandsIn st) (hst : st ≠ .capture) : Invariant (issue opc st s) :=
  Active.goto (s := { s with err := 0#4, ok := false, busy := true, curCmd := opc })
    ⟨rfl, hf, rfl, rfl, h.mem, h.sect⟩ hcmd (absurd · hst)

/-- R24: an operand of a command in progress. -/
theorem post_withOperand_invariant {α : Type} {operand : Option α} {k : α → State → Out} {s : State}
    (h : Invariant s) (hb : s.busy = true) (hk : ∀ v, operand = some v → Post Invariant (k v s)) :
    Post Invariant (withOperand operand k s) :=
  post_withOperand (fun _ => h.setFault hb) hk

/-- R25, R56, R140: the step of a command, by what its issue and its micro-steps do. -/
theorem post_underCommand_invariant {opc : BitVec 4} {start body : State → Out} {s : State}
    (hl : s.profile.legal = true) (h : Invariant s)
    (hstart : s.fault = false → s.busy = false → Post Invariant (start s))
    (hbody : ∀ st, InProgress opc st s → opc ∈ commandsIn st → Post Invariant (body s)) :
    Post Invariant (underCommand opc start body s) := by
  refine post_underCommand hl (fun _ => h) hstart (fun hf hb hc => ?_) h.setFault
  exact hbody s.seq ⟨hl, hf, hb, hc, rfl⟩ (hc ▸ (h.busy_position hb).1)

/-! ## The pure commands -/

/-- R58: a pure command is in progress in `EXEC` alone. -/
theorem eq_exec_of_mem_commandsIn {opc : BitVec 4} {st : SeqState} (hpure : opc ∈ commandsIn .exec)
    (hin : opc ∈ commandsIn st) : st = .exec := by
  revert opc
  cases st <;> decide

theorem post_pureCommand_invariant {opc : BitVec 4} {body : State → Out} {s : State} (hl : s.profile.legal = true)
    (h : Invariant s) (hpure : opc ∈ commandsIn .exec) (hbody : InProgress opc .exec s → Post Invariant (body s)) :
    Post Invariant (pureCommand opc body s) := by
  refine post_underCommand_invariant hl h (fun hf _ => post_next.2 (h.issue hf hpure nofun)) fun st hs hin => ?_
  obtain rfl := eq_exec_of_mem_commandsIn hpure hin
  simpa only [hs.seq_eq] using hbody hs

/-- R58: a pure command whose operand is written ends with results. -/
theorem post_pureResults_invariant {α : Type} {opc : BitVec 4} {operand : State → Option α}
    {r0 r1 r2 : α → State → U32} {s : State} (hl : s.profile.legal = true) (h : Invariant s)
    (hpure : opc ∈ commandsIn .exec) :
    Post Invariant (pureCommand opc
      (fun s => withOperand (operand s)
        (fun v s => .next (endOk { s with res0 := r0 v s, res1 := r1 v s, res2 := r2 v s })) s) s) := by
  refine post_pureCommand_invariant hl h hpure fun hs => ?_
  have ha := hs.active h
  exact post_withOperand_invariant h ha.busy fun v _ => post_next.2 (ha.withResults _ _ _).endOk

/-- R74: the selection, by what follows a winner. -/
theorem post_withSelection_invariant {k : U32 → Selection → State → Out} {s : State} (h : Invariant s)
    (ha : Active s) (hk : ∀ w sel, Post Invariant (k w sel (keepSelection sel s))) :
    Post Invariant (withSelection k s) := by
  refine post_withOperand_invariant h ha.busy fun ops _ => ?_
  dsimp only
  split
  · exact hk _ _
  · exact post_next.2 ((ha.keepSelection _).raise _)

theorem post_execPdoSelect_invariant {s : State} (hl : s.profile.legal = true) (h : Invariant s) :
    Post Invariant (execPdoSelect s) := by
  refine post_pureCommand_invariant hl h (by decide) fun hs => ?_
  have ha := hs.active h
  exact post_withSelection_invariant h ha fun w sel => post_next.2 ((ha.keepSelection sel).withResults _ _ _).endOk

/-- R110: the patched image lies in its buffer. -/
theorem Memory.wf_storeScratch {m : Memory} (img : Image) (hm : Memory.wf m = true) :
    Memory.wf (storeImage m scratchBase img) = true :=
  Memory.wf_storeImage img hm (by decide) (by decide)

theorem post_execNvmPatch_invariant {s : State} (hl : s.profile.legal = true) (h : Invariant s) :
    Post Invariant (execNvmPatch s) := by
  refine post_pureCommand_invariant hl h (by decide) fun hs => ?_
  have ha := hs.active h
  refine post_withOperand_invariant h ha.busy fun ops _ => ?_
  split
  · exact post_next.2 (ha.withMem (Memory.wf_storeScratch _ h.mem)).endOk
  · exact post_next.2 (ha.raise _)

/-! ## PRESENCE and NEGOTIATE -/

theorem post_presenceStep_invariant {k : State → State} {s : State} (ha : Active s)
    (hk : ∀ req r0, Invariant (k { afterBus s req with res0 := r0 })) : Post Invariant (presenceStep k s) := by
  refine post_busReadOr (fun _ => post_next.2 ((ha.afterBus _).raise _)) fun bytes _ _ => ?_
  dsimp only
  split
  · exact post_next.2 (hk _ _)
  · exact post_next.2 (((ha.afterBus _).withResults _ _ _).raise _)

theorem post_execPresence_invariant {s : State} (hl : s.profile.legal = true) (h : Invariant s) :
    Post Invariant (execPresence s) := by
  refine post_underCommand_invariant hl h (fun hf _ => post_next.2 (h.issue hf (by decide) nofun)) fun st hs hin => ?_
  have ha := hs.active h
  obtain rfl : st = .presence := by cases st <;> simp [commandsIn] at hin ⊢
  simp only [hs.seq_eq]
  exact post_presenceStep_invariant ha fun req r0 => ((ha.afterBus req).withResults r0 _ _).endOk

/-- R47, R70: the object count of a capabilities header is 1 to 7. -/
theorem hdrCount_range {p : DeviceProfile} {x : U16} (hx : hdrIsCaps p x = true) :
    1 ≤ ((hdrCount p x).setWidth 8).toNat ∧ ((hdrCount p x).setWidth 8).toNat ≤ 7 := by
  have hne : hdrCount p x ≠ 0#3 := by
    simp only [hdrIsCaps, Bool.and_eq_true, bne_iff_ne] at hx
    exact hx.1
  rw [BitVec.toNat_setWidth]
  bv_omega

section Negotiate

variable {s : State} (h : Invariant s)
include h

/-- R78 P0: the entry of a two-step poll of NEGOTIATE. -/
theorem post_pollEntry_invariant {st : SeqState} (hs : InProgress 7#4 st s) (hcmd : 7#4 ∈ commandsIn st)
    (hm : s.mstep.toNat = 0) (h2 : 1 < microSteps st) (budget : Option Nat) :
    Post Invariant (.next (advance (pollStart budget s))) := by
  have hseq := hs.seq_eq
  refine post_next.2 (((hs.active h).pollStart budget).advance ?_ ?_ ?_)
  · simpa [hseq, hs.curCmd_eq] using hcmd
  · simpa [hseq, hm] using h2
  · intro _ h2
    simp [← BitVec.toNat_inj, hm] at h2

theorem post_waitAttachStep_invariant (hs : InProgress 7#4 .waitAttach s) : Post Invariant (waitAttachStep s) := by
  have hm : s.mstep.toNat < 2 := hs.mstep_lt h
  have ha := hs.active h
  obtain hm | hm : s.mstep.toNat = 0 ∨ s.mstep.toNat = 1 := by omega
  · rw [waitAttachStep, hm]
    exact post_pollEntry_invariant h hs (by decide) hm (by decide) _
  · rw [waitAttachStep, hm]
    refine post_pollRead_invariant h ha ?_
    have hcmd := hs.curCmd_eq
    split
    · exact (ha.afterBus _).goto (by simp [hcmd, commandsIn]) nofun
    · exact (ha.afterBus _).goto (by simp [hcmd, commandsIn]) nofun

theorem post_sinkReadyStep_invariant (hs : InProgress 7#4 .sinkReadyWait s) : Post Invariant (sinkReadyStep s) := by
  have hm : s.mstep.toNat < 2 := hs.mstep_lt h
  have ha := hs.active h
  obtain hm | hm : s.mstep.toNat = 0 ∨ s.mstep.toNat = 1 := by omega
  · rw [sinkReadyStep, hm]
    exact post_pollEntry_invariant h hs (by decide) hm (by decide) _
  · rw [sinkReadyStep, hm]
    exact post_pollRead_invariant h ha ((ha.afterBus _).goto (by simp [hs.curCmd_eq, commandsIn]) nofun)

/-- R80: the two writes of a soft reset, by what follows them. -/
theorem post_softResetStep_invariant {st : SeqState} {k : State → State} (hs : InProgress 7#4 st s)
    (hst : st = .sendSoftReset ∨ st = .renegotiate) (hk : ∀ req, Invariant (k (afterBus s req))) :
    Post Invariant (softResetStep k s) := by
  have hm : s.mstep.toNat < 2 := by rcases hst with rfl | rfl <;> exact hs.mstep_lt h
  have ha := hs.active h
  obtain hm | hm : s.mstep.toNat = 0 ∨ s.mstep.toNat = 1 := by omega
  · rw [softResetStep, hm]
    refine post_busWrite ((ha.afterBus _).raise _) (post_next.2 ((ha.afterBus _).advance ?_ ?_ ?_))
    · rcases hst with rfl | rfl <;> simp [hs.curCmd_eq, hs.seq_eq, commandsIn]
    · rcases hst with rfl | rfl <;> simp [hs.seq_eq, hm, microSteps]
    · rcases hst with rfl | rfl <;> simp [hs.seq_eq]
  · rw [softResetStep, hm]
    exact post_busWrite ((ha.afterBus _).raise _) (post_next.2 (hk _))

theorem post_waitCapsStep_invariant (hs : InProgress 7#4 .waitCaps s) : Post Invariant (waitCapsStep s) := by
  have hm : s.mstep.toNat < 5 := hs.mstep_lt h
  have ha := hs.active h
  have hcmd := hs.curCmd_eq
  have hseq := hs.seq_eq
  obtain hm | hm | hm | hm | hm : s.mstep.toNat = 0 ∨ s.mstep.toNat = 1 ∨ s.mstep.toNat = 2 ∨
      s.mstep.toNat = 3 ∨ s.mstep.toNat = 4 := by omega
  · rw [waitCapsStep, hm]
    exact post_pollEntry_invariant h hs (by decide) hm (by decide) _
  · rw [waitCapsStep, hm]
    refine post_busRead ((ha.afterBus _).raise _) fun bytes _ _ => ?_
    split
    · exact post_next.2 ((ha.afterBus _).gotoStep hcmd hseq (by decide) nofun)
    · exact post_next.2 ((ha.afterBus _).gotoStep hcmd hseq (by decide) nofun)
  · rw [waitCapsStep, hm]
    refine post_busRead ((ha.afterBus _).raise _) fun bytes _ _ => ?_
    dsimp only
    have hstored (x : U16) : Active { afterBus s (.read s.profile.regRxHeader 2) with rxHdr := some x } :=
      ⟨ha.busy, ha.fault, ha.err, ha.ok, ha.mem, ha.sect⟩
    split
    · exact post_next.2 ((hstored _).gotoStep hcmd hseq (by decide) fun _ => ⟨_, rfl, ‹_›⟩)
    · exact post_next.2 ((hstored _).gotoStep hcmd hseq (by decide) nofun)
  · rw [waitCapsStep, hm]
    obtain ⟨x, hx, hcaps⟩ := h.header ha.busy hseq (BitVec.eq_of_toNat_eq hm)
    rw [hx]
    refine post_busRead ((ha.afterBus _).raise _) fun bytes _ _ => ?_
    have hcounted (n : Byte) : Active { afterBus s (.read s.profile.regRxByteCnt 1) with capCount := some n } :=
      ⟨ha.busy, ha.fault, ha.err, ha.ok, ha.mem, ha.sect⟩
    dsimp only
    split
    · exact post_next.2 ((ha.afterBus _).raise _)
    · exact post_next.2 ((hcounted _).goto (by simp [hcmd, commandsIn]) fun _ => ⟨_, rfl, hdrCount_range hcaps⟩)
  · rw [waitCapsStep, hm]
    exact post_timeCheck (ha.gotoStep hcmd hseq (by decide) nofun)
      (ha.afterNow.gotoStep (by simpa using hcmd) (by simpa using hseq) (by decide) nofun) (ha.afterNow.raise _)

/-- R88: the bytes of a capture of at most seven objects lie in `CAP_BUF`. -/
theorem post_captureStep_invariant (hs : InProgress 7#4 .capture s) : Post Invariant (captureStep s) := by
  have ha := hs.active h
  obtain ⟨n, hn, -, h7⟩ := h.capture ha.busy hs.seq_eq
  rw [captureStep, withOperand_of hn, objectCount_eq_toNat h7]
  refine post_busRead ((ha.afterBus _).raise _) fun bytes hlen _ => post_next.2 ?_
  refine ((ha.afterBus _).withMem (Memory.wf_setBytes bytes h.mem (by decide) ?_)).goto ?_ nofun
  · simp only [hlen, capBase, bufEnd]
    omega
  · simp [hs.curCmd_eq, commandsIn]

theorem post_selectStep_invariant (hs : InProgress 7#4 .select s) : Post Invariant (selectStep s) := by
  have ha := hs.active h
  refine post_withSelection_invariant h ha fun w sel => post_next.2 (Active.goto ?_ ?_ nofun)
  · exact ⟨ha.busy, ha.fault, ha.err, ha.ok, ha.mem, ha.sect⟩
  · simp [hs.curCmd_eq, commandsIn]

theorem post_commitStep_invariant (hs : InProgress 7#4 .commit s) : Post Invariant (commitStep s) := by
  have ha := hs.active h
  exact post_busWrite ((ha.afterBus _).raise _)
    (post_next.2 ((ha.afterBus _).goto (by simp [hs.curCmd_eq, commandsIn]) nofun))

theorem post_execNegotiate_invariant (hl : s.profile.legal = true) : Post Invariant (execNegotiate s) := by
  refine post_underCommand_invariant hl h (fun hf _ => post_next.2 (h.issue hf (by decide) nofun)) fun st hs hin => ?_
  have ha := hs.active h
  rw [negotiateStep, hs.seq_eq]
  cases st with
  | presence =>
    refine post_presenceStep_invariant ha fun req r0 => ((ha.afterBus req).withResults r0 _ _).goto ?_ nofun
    simp [hs.curCmd_eq, commandsIn]
  | waitAttach => exact post_waitAttachStep_invariant h hs
  | sinkReadyWait => exact post_sinkReadyStep_invariant h hs
  | sendSoftReset =>
    refine post_softResetStep_invariant h hs (.inl rfl) fun req => (ha.afterBus req).goto ?_ nofun
    simp [hs.curCmd_eq, commandsIn]
  | waitCaps => exact post_waitCapsStep_invariant h hs
  | capture => exact post_captureStep_invariant h hs
  | select => exact post_selectStep_invariant h hs
  | commit => exact post_commitStep_invariant h hs
  | renegotiate =>
    exact post_softResetStep_invariant h hs (.inr rfl) fun req => ((ha.afterBus req).withResults _ _ _).endOk
  | _ => simp [commandsIn] at hin

end Negotiate

/-! ## The NVM commands -/

/-- R33, R122, R128: a primitive's sector is one of the five, and its buffer one of the two the block reads into. -/
def NvmOp.InBounds : NvmOp → Prop
  | .openSector n _ _ => n.toNat ≤ 4
  | .loadSector n => n.toNat ≤ 4
  | .readSector base => base = imgBase ∨ base = verifyBase
  | _ => True

/-- A micro-step of an NVM primitive, by what follows it at the same position. -/
theorem post_nvmOpStep_invariant {op : NvmOp} {k : State → State} {s : State} (hop : op.InBounds) (h : Invariant s)
    (ha : Active s)
    (hk : ∀ t, Active t → t.curCmd = s.curCmd → t.seq = s.seq → t.mstep = s.mstep → Invariant (k t)) :
    Post Invariant (nvmOpStep op k s) := by
  cases op with
  | write reg bytes =>
    rw [nvmOpStep]
    exact post_busWrite ((ha.afterBus _).raise _) (post_next.2 (hk _ (ha.afterBus _) rfl rfl rfl))
  | openSector n reg bytes =>
    rw [nvmOpStep]
    exact post_busWrite ((ha.afterBus _).raise _) (post_next.2 (hk _ ((ha.afterBus _).withSect hop) rfl rfl rfl))
  | loadSector n =>
    refine post_withOperand_invariant h ha.busy fun bytes _ => ?_
    exact post_busWrite ((ha.afterBus _).raise _) (post_next.2 (hk _ ((ha.afterBus _).withSect hop) rfl rfl rfl))
  | ackStart => exact post_next.2 (hk _ (ha.pollStart _) (by simp) (by simp) (by simp))
  | ackPoll => exact post_pollRead_invariant h ha (hk _ (ha.afterBus _) rfl rfl rfl)
  | readSector base =>
    rw [nvmOpStep, if_neg (by have := ha.sect; omega)]
    refine post_busRead ((ha.afterBus _).raise _) fun bytes hlen _ => post_next.2 ?_
    exact hk _ ((ha.afterBus _).storeSect hop hlen) rfl rfl rfl

/-- The micro-step of a state that runs a list of primitives as long as its rule says. -/
theorem post_nvmListStep_invariant {opc : BitVec 4} {st : SeqState} {ops : List NvmOp} {leave : State → State}
    {s : State} (h : Invariant s) (hs : InProgress opc st s) (hin : opc ∈ commandsIn st)
    (hlen : ops.length = microSteps st) (hops : ∀ op ∈ ops, op.InBounds) (hst : st ≠ .waitCaps)
    (hleave : ∀ t, Active t → t.curCmd = opc → Invariant (leave t)) :
    Post Invariant (nvmListStep ops leave s) := by
  have hcmd := hs.curCmd_eq
  have hseq := hs.seq_eq
  have hlt : s.mstep.toNat < ops.length := hlen ▸ hs.mstep_lt h
  rw [nvmListStep_at (List.getElem?_eq_getElem hlt)]
  refine post_nvmOpStep_invariant (hops _ (List.getElem_mem hlt)) h (hs.active h) fun t ht htc htq htm => ?_
  split
  · refine ht.advance ?_ ?_ ?_
    · rwa [htc, htq, hcmd, hseq]
    · rwa [htm, htq, hseq, ← hlen]
    · rw [htq, hseq]
      exact (absurd · hst)
  · exact hleave t ht (htc.trans hcmd)

theorem sectors_le : ∀ n ∈ sectors, n.toNat ≤ 4 := by decide

theorem readImageOps_inBounds (p : DeviceProfile) {base : Nat} (hbase : base = imgBase ∨ base = verifyBase) :
    ∀ op ∈ readImageOps p base, op.InBounds := by
  have hsector (n : BitVec 3) (hn : n ∈ sectors) : ∀ op ∈ readSectorOps p base n, op.InBounds := by
    simp [readSectorOps, issueOp, ctrlReset, NvmOp.InBounds, sectors_le n hn, hbase]
  simp only [readImageOps, List.forall_mem_append, List.mem_flatMap]
  refine ⟨⟨?_, fun op ⟨n, hn, hop⟩ => hsector n hn op hop⟩, ?_⟩
  · simp [enterReadMode, unlock, ctrlReset, powerOn, NvmOp.InBounds]
  · simp [exitOps, NvmOp.InBounds]

theorem programOps_inBounds (p : DeviceProfile) : ∀ op ∈ programOps p, op.InBounds := by
  have hsector (n : BitVec 3) (hn : n ∈ sectors) : ∀ op ∈ writeSectorOps p n, op.InBounds := by
    simp [writeSectorOps, issueOp, powerOn, NvmOp.InBounds, sectors_le n hn]
  simp only [programOps, List.mem_flatMap]
  exact fun op ⟨n, hn, hop⟩ => hsector n hn op hop

theorem enterWriteMode_inBounds (p : DeviceProfile) : ∀ op ∈ enterWriteMode p, op.InBounds := by
  simp [enterWriteMode, issueOp, unlock, ctrlReset, powerOn, NvmOp.InBounds]

theorem exitOps_inBounds (p : DeviceProfile) : ∀ op ∈ exitOps p, op.InBounds := by
  simp [exitOps, NvmOp.InBounds]

section Nvm

variable {s : State} (h : Invariant s)
include h

theorem post_execNvmRead_invariant (hl : s.profile.legal = true) : Post Invariant (execNvmRead s) := by
  refine post_underCommand_invariant hl h (fun hf _ => post_next.2 (h.issue hf (by decide) nofun)) fun st hs hin => ?_
  obtain rfl : st = .nvmReadImage := by cases st <;> simp [commandsIn] at hin ⊢
  simp only [hs.seq_eq]
  exact post_nvmListStep_invariant h hs hin rfl (readImageOps_inBounds _ (.inl rfl)) nofun fun t ht _ => ht.endOk

/-- R56, R126: the issue of NVM_FLASH, whose validation may fault the issued command or end it. -/
theorem post_issueFlash_invariant (hf : s.fault = false) : Post Invariant (issueFlash s) := by
  have hi : Invariant (issue 0xA#4 .nvmReadImage s) := h.issue hf (by decide) nofun
  rw [issueFlash, validate]
  refine post_withOperand_invariant hi (by simp) fun cfg _ => ?_
  split
  · exact post_next.2 hi
  · exact post_next.2 (invariant_raise _ (by simpa using hf) hi.mem hi.sect)

theorem post_flashPatchStep_invariant (hs : InProgress 10#4 .nvmPatch s) : Post Invariant (flashPatchStep s) := by
  have ha := hs.active h
  refine post_withOperand_invariant h ha.busy fun cfg _ => post_withOperand_invariant h ha.busy fun img _ => ?_
  refine post_next.2 ((ha.withMem (Memory.wf_storeScratch _ h.mem)).goto ?_ nofun)
  simp [hs.curCmd_eq, commandsIn]

theorem post_compareStep_invariant (hs : InProgress 10#4 .nvmCompare s) : Post Invariant (compareStep s) := by
  have ha := hs.active h
  refine post_withOperand_invariant h ha.busy fun v _ => post_withOperand_invariant h ha.busy fun x _ => ?_
  split
  · exact post_next.2 ha.endOk
  · exact post_next.2 (ha.raise _)

theorem post_execNvmFlash_invariant (hl : s.profile.legal = true) : Post Invariant (execNvmFlash s) := by
  refine post_underCommand_invariant hl h (fun hf _ => post_issueFlash_invariant h hf) fun st hs hin => ?_
  have move (next : SeqState) (hnext : 10#4 ∈ commandsIn next) (hcap : next ≠ .capture) (t : State) (ht : Active t)
      (htc : t.curCmd = 10#4) : Invariant (goto next t) := ht.goto (htc ▸ hnext) (absurd · hcap)
  rw [flashStep, hs.seq_eq]
  cases st with
  | nvmReadImage =>
    exact post_nvmListStep_invariant h hs hin rfl (readImageOps_inBounds _ (.inl rfl)) nofun
      (move .nvmPatch (by decide) nofun)
  | nvmPatch => exact post_flashPatchStep_invariant h hs
  | nvmErase =>
    exact post_nvmListStep_invariant h hs hin rfl (enterWriteMode_inBounds _) nofun
      (move .nvmProgram (by decide) nofun)
  | nvmProgram =>
    exact post_nvmListStep_invariant h hs hin rfl (programOps_inBounds _) nofun (move .nvmExit (by decide) nofun)
  | nvmExit =>
    exact post_nvmListStep_invariant h hs hin rfl (exitOps_inBounds _) nofun (move .nvmVerifyRead (by decide) nofun)
  | nvmVerifyRead =>
    exact post_nvmListStep_invariant h hs hin rfl (readImageOps_inBounds _ (.inr rfl)) nofun
      (move .nvmCompare (by decide) nofun)
  | nvmCompare => exact post_compareStep_invariant h hs
  | _ => simp [commandsIn] at hin

/-! ## Every command and every input -/

theorem post_execIllegalOpc_invariant (w : Byte) (hl : s.profile.legal = true) :
    Post Invariant (execIllegalOpc w s) := by
  rw [execIllegalOpc, if_neg (by simp [hl])]
  split
  · exact post_next.2 h
  · split
    · exact post_next.2 (h.setFault ‹_›)
    · exact post_next.2 (invariant_raise _ (by simpa using ‹¬s.fault = true›) h.mem h.sect)

/-- Every command answers a next state, which meets the invariant. -/
theorem post_exec_invariant (i : Instr) (hl : s.profile.legal = true) : Post Invariant (exec i s) := by
  cases i with
  | pdoDecode => exact post_pureResults_invariant hl h (by decide)
  | pdoEncode => exact post_pureResults_invariant hl h (by decide)
  | pdoPower => exact post_pureResults_invariant hl h (by decide)
  | hdrClassify => exact post_pureResults_invariant hl h (by decide)
  | pdoSelect => exact post_execPdoSelect_invariant hl h
  | presence => exact post_execPresence_invariant hl h
  | negotiate => exact post_execNegotiate_invariant h hl
  | nvmRead => exact post_execNvmRead_invariant h hl
  | nvmPatch => exact post_execNvmPatch_invariant hl h
  | nvmFlash => exact post_execNvmFlash_invariant h hl
  | illegalOpc w => exact post_execIllegalOpc_invariant h w hl

end Nvm

end Sys2Proof.Machine
end

section
/-!
PROOFS about the inputs of the outside world (R13, R25, R56, R151), and that every step answers a next state that meets
the invariant.
-/

namespace Sys2Proof.Machine

/-- R15: a host write of a register leaves the status, the position, the hidden registers and the outside world. -/
@[simp] theorem writeRegister_keeps (idx : Byte) (v : U32) (s : State) :
    (writeRegister idx v s).profile = s.profile ∧ (writeRegister idx v s).err = s.err ∧
    (writeRegister idx v s).busy = s.busy ∧ (writeRegister idx v s).ok = s.ok ∧
    (writeRegister idx v s).fault = s.fault ∧ (writeRegister idx v s).seq = s.seq ∧
    (writeRegister idx v s).mstep = s.mstep ∧ (writeRegister idx v s).sect = s.sect ∧
    (writeRegister idx v s).curCmd = s.curCmd ∧ (writeRegister idx v s).trace = s.trace ∧
    (writeRegister idx v s).ic = s.ic ∧ (writeRegister idx v s).icScript = s.icScript ∧
    (writeRegister idx v s).clkScript = s.clkScript := by
  unfold writeRegister
  split
  case h_15 => split <;> simp
  all_goals simp

/-- R15, log 21: a host write keeps the form of the buffers, since what the host may write lies inside them. -/
theorem wf_writeRegister {idx : Byte} {v : U32} {s : State} (h : Memory.wf s.mem = true) :
    Memory.wf (writeRegister idx v s).mem = true := by
  unfold writeRegister
  split
  case h_15 =>
    split
    · rename_i hw
      have hrange : capBase ≤ idx.toNat ∧ idx.toNat < bufEnd := by
        simp only [hostWritable, Bool.or_eq_true, Bool.and_eq_true, decide_eq_true_eq] at hw
        simp only [capBase, bufEnd]
        omega
      exact Memory.wf_set _ h hrange.1 hrange.2
    · exact h
  all_goals exact h

section Inputs

variable {s : State} (h : Invariant s)
include h

theorem Invariant.writeRegister (hb : s.busy = false) (idx : Byte) (v : U32) : Invariant (writeRegister idx v s) where
  mem := wf_writeRegister h.mem
  okBit := by simpa using h.okBit
  errCode := by simpa using h.errCode
  busyErr := by simp [hb]
  position := by simpa [Positioned, hb] using h.position
  faultBusy := by simpa using h.faultBusy
  sect := by simpa using h.sect
  capture := by simp [hb]
  header := by simp [hb]

theorem Invariant.hostRead (idx : Byte) : Invariant (hostRead idx s) :=
  ⟨h.mem, h.okBit, h.errCode, h.busyErr, h.position, h.faultBusy, h.sect, h.capture, h.header⟩

/-- R53: `CUR_CMD` of a command in progress is in the opcode map. -/
theorem Invariant.decodeOpc_curCmd (hb : s.busy = true) : ∃ i, decodeOpc s.curCmd = some i := by
  have hin := (h.busy_position hb).1
  generalize s.curCmd = opc at hin
  generalize s.seq = st at hin
  refine Option.isSome_iff_exists.1 ?_
  revert opc
  cases st <;> decide

theorem post_blockStep_invariant (hl : s.profile.legal = true) : Post Invariant (blockStep s) := by
  by_cases hq : s.busy = false ∨ s.fault = true
  · rw [blockStep_quiescent hq]
    exact post_next.2 h
  · rw [not_or, Bool.not_eq_false, Bool.not_eq_true] at hq
    obtain ⟨hb, hf⟩ := hq
    obtain ⟨i, hi⟩ := h.decodeOpc_curCmd hb
    rw [blockStep_busy hf hb hi]
    exact post_exec_invariant h i hl

theorem post_hostWrite_invariant (hl : s.profile.legal = true) (idx : Byte) (v : U32) :
    Post Invariant (hostWrite idx v s) := by
  cases hb : s.busy with
  | true =>
    rw [hostWrite_busy idx v hb]
    exact post_next.2 (h.setFault hb)
  | false =>
    by_cases hi : idx = 0x00#8
    · subst hi
      rw [hostWrite_command hb rfl]
      exact post_exec_invariant h _ hl
    · rw [hostWrite_register v hb hi]
      exact post_next.2 (h.writeRegister hb idx v)

end Inputs

/-- R151: a reset gives the reset state, but for the outside world. -/
theorem invariant_resetBlock (s : State) : Invariant (resetBlock s) := by
  have h := resetSatisfiesInvariant s.profile
  exact ⟨h.mem, h.okBit, h.errCode, h.busyErr, h.position, h.faultBusy, h.sect, h.capture, h.header⟩

/-- Settles O59: the next input lands, or the block steps; each answers a next state that meets the invariant. -/
theorem stepAlwaysAnswersNext : Obligations.StepAlwaysAnswersNext := by
  intro s hl h
  change Post Invariant (step s)
  cases hi : s.inputs with
  | nil =>
    rw [step_noInput hl hi]
    exact post_blockStep_invariant h hl
  | cons i rest =>
    rw [step_input hl hi]
    have hr := h.withInputs rest
    cases i with
    | run => exact post_blockStep_invariant hr hl
    | hostWrite idx v => exact post_hostWrite_invariant hr hl idx v
    | hostRead idx => exact post_next.2 (hr.hostRead idx)
    | reset => exact post_next.2 (invariant_resetBlock _)

/-- R94, R140: a step that answers a next state runs under a legal profile. -/
theorem legal_of_step {s t : State} (h : step s = .next t) : s.profile.legal = true := by
  by_contra hl
  rw [step_illegalProfile (by simpa using hl)] at h
  cases h

/-- Settles O58: a step that answers a next state runs under a legal profile, where it answers one that meets the
invariant. -/
theorem stepKeepsInvariant : Obligations.StepKeepsInvariant := by
  intro s t h hstep
  have hpost : Post Invariant (step s) := stepAlwaysAnswersNext s (legal_of_step hstep) h
  exact hpost.sat t hstep

end Sys2Proof.Machine
end

section
/-!
PROOFS about the step and the host port: which command a step runs (R19, R53, R56), the blocks that wait or are frozen
(R57, R140), reset (R151 to R153), and the profiles nothing runs under (R43, R46, R94).
-/

namespace Sys2Proof.Machine

/-! ## The step -/

/-- Settles O4: the write of `CMD` lands, and its byte is decoded; `withFetchWord` queues such a write. -/
theorem cmdWriteRunsTheDecodedCommand : Obligations.CmdWriteRunsTheDecodedCommand := by
  have hwrite (s : State) (v : U32) (rest : List Input) (i : Instr) (hl : s.profile.legal = true)
      (hb : s.busy = false) (hi : s.inputs = .hostWrite 0x00#8 v :: rest)
      (hd : decode [commandByte v] = .ok (i, [])) : step s = exec i { s with inputs := rest } := by
    rw [step_input hl hi]
    exact hostWrite_command hb hd
  refine ⟨hwrite, fun s w i hl hb hd => ?_⟩
  refine hwrite (s.withFetchWord 8 w) (tableWordValue 8 w) s.inputs i hl hb rfl ?_
  have hbyte : commandByte (tableWordValue 8 w) = BitVec.ofNat 8 w := by
    apply BitVec.eq_of_toNat_eq
    simp [commandByte, tableWordValue]
  have htable : tableBytes 8 w = [BitVec.ofNat 8 w] := by
    have hw : BitVec.ofNat 8 (w % 2 ^ 8) = BitVec.ofNat 8 w := by simp [← BitVec.toNat_inj]
    simpa [tableBytes] using hw
  simp only [decodeTableWord, htable, decode, Option.some.injEq] at hd
  rw [hbyte, decode, hd]

/-- Settles O5: `CUR_CMD` decodes to the command in progress, with or without a `run` in the queue. -/
theorem busyBlockStepsItsCommand : Obligations.BusyBlockStepsItsCommand := by
  intro s i hl hf hb ho
  have hd := decodeOpc_opcodeOf ho
  refine ⟨fun hi => ?_, fun rest hi => ?_⟩
  · rw [step_noInput hl hi, blockStep_busy hf hb hd]
  · rw [step_input hl hi]
    exact blockStep_busy hf hb hd

/-- Settles O6: a block that takes no step of its own waits, with or without a `run` in the queue. -/
theorem quiescentBlockWaits : Obligations.QuiescentBlockWaits := by
  intro s hl hq
  refine ⟨fun hi => ?_, fun rest hi => ?_⟩
  · rw [step_noInput hl hi, blockStep_quiescent hq]
  · rw [step_input hl hi]
    exact blockStep_quiescent hq

/-! ## Reset -/

/-- Settles O11: the reset state names these values. -/
theorem resetValues : Obligations.ResetValues := by
  intro p
  simp [State.resetWith, State.reset]

/-- Settles O12: the reset lands, whatever the block does. -/
theorem resetAbandonsTheCommand : Obligations.ResetAbandonsTheCommand := by
  intro s rest hl hi
  exact step_input hl hi

/-! ## Blocks a command does not run in -/

/-- R56, log 10: a command of the opcode map is its issue and its micro-steps, under the checks of `underCommand`; every
issue but NVM_FLASH's makes the writes of R56 alone. -/
theorem exec_eq_underCommand {i : Instr} {opc : BitVec 4} (h : opcodeOf i = some opc) :
    ∃ start body, (∀ s, exec i s = underCommand opc start body s) ∧
      (i ≠ .nvmFlash → ∀ s, start s = .next (issue opc (entryState i) s)) := by
  cases i <;> cases h
  case pdoDecode => exact ⟨_, _, fun s => by rw [exec, execPdoDecode, pureCommand], by intros; rfl⟩
  case pdoEncode => exact ⟨_, _, fun s => by rw [exec, execPdoEncode, pureCommand], by intros; rfl⟩
  case pdoPower => exact ⟨_, _, fun s => by rw [exec, execPdoPower, pureCommand], by intros; rfl⟩
  case hdrClassify => exact ⟨_, _, fun s => by rw [exec, execHdrClassify, pureCommand], by intros; rfl⟩
  case pdoSelect => exact ⟨_, _, fun s => by rw [exec, execPdoSelect, pureCommand], by intros; rfl⟩
  case presence => exact ⟨_, _, fun s => by rw [exec, execPresence], by intros; rfl⟩
  case negotiate => exact ⟨_, _, fun s => by rw [exec, execNegotiate], by intros; rfl⟩
  case nvmRead => exact ⟨_, _, fun s => by rw [exec, execNvmRead], by intros; rfl⟩
  case nvmPatch => exact ⟨_, _, fun s => by rw [exec, execNvmPatch, pureCommand], by intros; rfl⟩
  case nvmFlash => exact ⟨_, _, fun s => by rw [exec, execNvmFlash], fun hi => absurd rfl hi⟩

/-- R54: a command without an opcode is of the illegal space. -/
theorem eq_illegalOpc_of_opcodeOf {i : Instr} (h : opcodeOf i = none) : ∃ w, i = .illegalOpc w := by
  cases i <;> cases h
  exact ⟨_, rfl⟩

/-- R140: a faulted block ignores every command. -/
theorem exec_faulted {s : State} (i : Instr) (hl : s.profile.legal = true) (hf : s.fault = true) :
    exec i s = .next s := by
  cases ho : opcodeOf i with
  | none =>
    obtain ⟨w, rfl⟩ := eq_illegalOpc_of_opcodeOf ho
    simp [exec, execIllegalOpc, hl, hf]
  | some opc =>
    obtain ⟨start, body, he, -⟩ := exec_eq_underCommand ho
    rw [he, underCommand_faulted hl hf]

/-- R94: no command runs under an illegal profile. -/
theorem exec_illegalProfile {s : State} (i : Instr) (hl : s.profile.legal = false) :
    exec i s = .refused .illegalProfile := by
  cases ho : opcodeOf i with
  | none =>
    obtain ⟨w, rfl⟩ := eq_illegalOpc_of_opcodeOf ho
    simp [exec, execIllegalOpc, hl]
  | some opc =>
    obtain ⟨start, body, he, -⟩ := exec_eq_underCommand ho
    rw [he, underCommand_illegalProfile hl]

/-- Setting `FAULT` again changes nothing. -/
theorem setFault_faulted {s : State} (hf : s.fault = true) : setFault s = s := by
  rw [setFault, ← hf]

/-- R25, R56: a command that is not the one in progress is a duty violation. -/
theorem underCommand_other {opc : BitVec 4} {start body : State → Out} {s : State} (hl : s.profile.legal = true)
    (hb : s.busy = true) (hc : s.curCmd ≠ opc) : underCommand opc start body s = .next (setFault s) := by
  cases hf : s.fault with
  | true => rw [underCommand_faulted hl hf, setFault_faulted hf]
  | false => simp [underCommand, hl, hf, hb, hc]

/-- Settles O21: every command checks that it is the one in progress; the illegal space never is. -/
theorem commandDuringAnotherFaults : Obligations.CommandDuringAnotherFaults := by
  intro s i hl hb ho
  change exec i s = .next (setFault s)
  cases hi : opcodeOf i with
  | none =>
    obtain ⟨w, rfl⟩ := eq_illegalOpc_of_opcodeOf hi
    cases hf : s.fault with
    | true => rw [exec_faulted _ hl hf, setFault_faulted hf]
    | false => simp [exec, execIllegalOpc, hl, hf, hb]
  | some opc =>
    obtain ⟨start, body, he, -⟩ := exec_eq_underCommand hi
    rw [he, underCommand_other hl hb fun hc => ho (hc ▸ hi)]

/-! ## A faulted block -/

/-- What a faulted block keeps until a reset (R140). -/
def Frozen (s t : State) : Prop :=
  t.fault = true ∧ t.trace = s.trace ∧ t.clkScript = s.clkScript ∧ t.ic = s.ic ∧ t.icScript = s.icScript ∧
  t.seq = s.seq ∧ t.mstep = s.mstep ∧ t.busy = s.busy ∧ t.err = s.err ∧ t.ok = s.ok ∧ t.curCmd = s.curCmd

theorem Frozen.refl {s : State} (hf : s.fault = true) : Frozen s s := by simp [Frozen, hf]

/-- R25, R140, log 17: a host write at a faulted block. -/
theorem sat_hostWrite_frozen {s : State} (hl : s.profile.legal = true) (hf : s.fault = true) (idx : Byte) (v : U32) :
    Sat (Frozen s) (hostWrite idx v s) := by
  cases hb : s.busy with
  | true =>
    rw [hostWrite_busy idx v hb, setFault_faulted hf]
    exact sat_next.2 (.refl hf)
  | false =>
    by_cases hi : idx = 0x00#8
    · subst hi
      rw [hostWrite_command hb rfl, exec_faulted _ hl hf]
      exact sat_next.2 (.refl hf)
    · rw [hostWrite_register v hb hi]
      exact sat_next.2 (by simp [Frozen, hf])

/-- Settles O8: of the inputs, a `run` and a command change nothing, and the host's accesses leave what is listed. -/
theorem faultedBlockIsFrozen : Obligations.FaultedBlockIsFrozen := by
  refine ⟨fun i s hl hf => exec_faulted i hl hf, fun s t hf hreset hstep => ?_⟩
  have hl := legal_of_step hstep
  suffices hsat : Sat (Frozen s) (step s) from hsat t hstep
  cases hi : s.inputs with
  | nil =>
    rw [step_noInput hl hi, blockStep_quiescent (.inr hf)]
    exact sat_next.2 (.refl hf)
  | cons i rest =>
    rw [step_input hl hi]
    cases i with
    | run =>
      rw [takeInput, blockStep_quiescent (.inr (by exact hf))]
      exact sat_next.2 (.refl hf)
    | hostWrite idx v => exact sat_hostWrite_frozen (s := { s with inputs := rest }) hl hf idx v
    | hostRead idx => exact sat_next.2 (.refl hf)
    | reset => exact absurd hi (hreset rest)

end Sys2Proof.Machine
end

section
/-!
PROOFS about the NVM field map (R49, R94, R95): the bits of a field are an interval of the image's bits, counted from
bit 0 of byte 0, and a legal map is one whose intervals lie in their containers and do not meet.
-/

namespace Sys2Proof

/-- The number of a field's least significant bit in the image, eight bits to a byte. -/
def FieldMap.start (m : FieldMap) (f : Field) : Nat := 8 * f.index + m.lsb f

/-- R49: how many bytes the container of a field has. -/
def Field.bytes (f : Field) : Nat := if f.isWindow then 2 else 1

/-- R95: the bits of a field are those from its start on. -/
theorem FieldMap.mem_bits_iff {m : FieldMap} {f : Field} {j b : Nat} :
    (j, b) ∈ m.bits f ↔ b < 8 ∧ m.start f ≤ 8 * j + b ∧ 8 * j + b < m.start f + f.width := by
  simp only [FieldMap.bits, List.mem_map, List.mem_range, Prod.mk.injEq, FieldMap.start]
  constructor
  · rintro ⟨k, hk, rfl, rfl⟩
    omega
  · intro h
    exact ⟨8 * j + b - (8 * f.index + m.lsb f), by omega, by omega, by omega⟩

theorem Field.width_pos (f : Field) : 0 < f.width := by cases f <;> decide

theorem Field.mem_fieldTable (f : Field) : f ∈ fieldTable := by cases f <;> decide

theorem Field.forall_iff {P : Field → Prop} :
    (∀ f, P f) ↔ P .pdo1Current ∧ P .pdo2Current ∧ P .pdo3Current ∧ P .flexFallbackCurrent ∧ P .pdo2Voltage ∧
      P .pdo3Voltage ∧ P .numValidPdos ∧ P .useSrcCurrent ∧ P .onlyAbove5V ∧ P .gpioCfg := by
  refine ⟨fun h => ⟨h _, h _, h _, h _, h _, h _, h _, h _, h _, h _⟩, fun h f => ?_⟩
  obtain ⟨h1, h2, h3, h4, h5, h6, h7, h8, h9, h10⟩ := h
  cases f <;> assumption

/-- R94 (d): the fields' intervals do not meet. -/
theorem FieldMap.disjoint_iff {m : FieldMap} :
    m.disjoint = true ↔
      ∀ f g, f ≠ g → m.start f + f.width ≤ m.start g ∨ m.start g + g.width ≤ m.start f := by
  have hpair (f g : Field) :
      ((m.bits f).all fun b => !(m.bits g).contains b) = true ↔
        m.start f + f.width ≤ m.start g ∨ m.start g + g.width ≤ m.start f := by
    have hf := f.width_pos
    have hg := g.width_pos
    simp only [List.all_eq_true, Prod.forall, Bool.not_eq_true', List.contains_eq_mem, decide_eq_false_iff_not,
      FieldMap.mem_bits_iff]
    constructor
    · intro h
      by_contra hmeet
      -- the greater of the two starts is a bit of both fields
      refine h (max (m.start f) (m.start g) / 8) (max (m.start f) (m.start g) % 8) ?_ ?_ <;> omega
    · intro h j b
      omega
  simp only [FieldMap.disjoint, List.all_eq_true, Bool.or_eq_true, decide_eq_true_eq, hpair]
  constructor
  · exact fun h f g hne => (h f f.mem_fieldTable g g.mem_fieldTable).resolve_left hne
  · exact fun h f _ g _ => or_iff_not_imp_left.2 (h f g)

/-- R94 (a), (b): where a field lies in its container. -/
theorem FieldMap.fits_iff {m : FieldMap} {f : Field} :
    m.fits f = true ↔
      if f.isWindow = true then m.lsb f ≤ 7 ∧ 9 ≤ m.lsb f + f.width ∧ m.lsb f + f.width ≤ 16
      else m.lsb f + f.width ≤ 8 := by
  unfold FieldMap.fits
  split <;> simp [and_assoc]

/-- R94: a field that fits lies in the bytes of its container. -/
theorem FieldMap.interval_of_fits {m : FieldMap} {f : Field} (h : m.fits f = true) :
    8 * f.index ≤ m.start f ∧ m.start f + f.width ≤ 8 * (f.index + f.bytes) := by
  rw [FieldMap.fits_iff] at h
  unfold FieldMap.start Field.bytes
  split at h <;> simp_all <;> omega

/-- R49: two fields share a byte in three cases alone. -/
theorem Field.share_byte (f g : Field) (hne : f ≠ g) :
    f.index + f.bytes ≤ g.index ∨ g.index + g.bytes ≤ f.index ∨
      (f, g) ∈ [(.pdo1Current, .numValidPdos), (.numValidPdos, .pdo1Current), (.useSrcCurrent, .onlyAbove5V),
        (.onlyAbove5V, .useSrcCurrent), (.pdo3Voltage, .flexFallbackCurrent),
        (.flexFallbackCurrent, .pdo3Voltage)] := by
  revert hne
  cases f <;> cases g <;> decide

/-- R94, written out field by field. -/
theorem FieldMap.legal_iff {m : FieldMap} :
    m.legal = true ↔
      (m.pdo1Current + 4 ≤ 8 ∧ m.pdo2Current + 4 ≤ 8 ∧ m.pdo3Current + 4 ≤ 8 ∧ m.numValidPdos + 2 ≤ 8 ∧
        m.useSrcCurrent + 1 ≤ 8 ∧ m.onlyAbove5V + 1 ≤ 8) ∧
      (m.flexFallbackCurrent ≤ 7 ∧ 9 ≤ m.flexFallbackCurrent + 10 ∧ m.flexFallbackCurrent + 10 ≤ 16) ∧
      (m.pdo2Voltage ≤ 7 ∧ 9 ≤ m.pdo2Voltage + 9 ∧ m.pdo2Voltage + 9 ≤ 16) ∧
      (m.pdo3Voltage ≤ 7 ∧ 9 ≤ m.pdo3Voltage + 9 ∧ m.pdo3Voltage + 9 ≤ 16) ∧
      m.gpioCfg = 4 ∧
      (m.pdo1Current + 4 ≤ m.numValidPdos ∨ m.numValidPdos + 2 ≤ m.pdo1Current) ∧
      m.useSrcCurrent ≠ m.onlyAbove5V ∧
      m.pdo3Voltage + 9 ≤ m.flexFallbackCurrent + 8 := by
  have hfits : (fieldTable.all fun f => m.fits f) = true ↔ ∀ f, m.fits f = true := by
    simp only [List.all_eq_true]
    exact ⟨fun h f => h f f.mem_fieldTable, fun h f _ => h f⟩
  simp only [FieldMap.legal, Bool.and_eq_true, hfits, beq_iff_eq, FieldMap.disjoint_iff]
  constructor
  · rintro ⟨⟨hf, hgpio⟩, hd⟩
    have hcurrent := hd .pdo1Current .numValidPdos nofun
    have hflags := hd .useSrcCurrent .onlyAbove5V nofun
    have hvoltage := hd .pdo3Voltage .flexFallbackCurrent nofun
    simp only [Field.forall_iff, FieldMap.fits_iff, Field.isWindow, FieldMap.lsb, Field.width, if_true, if_false,
      Bool.false_eq_true] at hf
    simp only [FieldMap.start, Field.index, Field.sector, Field.byteInSector, FieldMap.lsb, Field.width]
      at hcurrent hflags hvoltage
    omega
  · rintro ⟨hbytes, hflex, hpdo2, hpdo3, hgpio, hcurrent, hflags, hvoltage⟩
    have hf : ∀ f, m.fits f = true := by
      simp only [Field.forall_iff, FieldMap.fits_iff, Field.isWindow, FieldMap.lsb, Field.width, if_true, if_false,
        Bool.false_eq_true]
      omega
    refine ⟨⟨hf, hgpio⟩, fun f g hne => ?_⟩
    have hif := FieldMap.interval_of_fits (hf f)
    have hig := FieldMap.interval_of_fits (hf g)
    rcases Field.share_byte f g hne with h | h | h
    · omega
    · omega
    · simp only [List.mem_cons, Prod.mk.injEq, List.not_mem_nil, or_false] at h
      rcases h with ⟨rfl, rfl⟩ | ⟨rfl, rfl⟩ | ⟨rfl, rfl⟩ | ⟨rfl, rfl⟩ | ⟨rfl, rfl⟩ | ⟨rfl, rfl⟩ <;>
        simp only [FieldMap.start, Field.index, Field.sector, Field.byteInSector, FieldMap.lsb, Field.width] <;> omega

namespace Machine

/-- Settles O7: the two legality tests are their conditions written out, and neither the step nor a command passes the
test of an illegal profile. -/
theorem illegalProfileRunsNothing : Obligations.IllegalProfileRunsNothing := by
  refine ⟨fun p => ?_, fun m => FieldMap.legal_iff, fun s hl => ⟨step_illegalProfile hl, fun i => ?_⟩⟩
  · simp [DeviceProfile.legal, and_assoc]
  · exact exec_illegalProfile i hl

end Machine

end Sys2Proof
end

section
/-!
PROOFS about the host port: what a host write stores (R15, R17, R24), and what a host read returns (R15 to R18, R38).
-/

namespace Sys2Proof.Machine

/-! ## Host writes -/

theorem hostWrites_register {s : State} {idx : Byte} (v : U32) (hl : s.profile.legal = true) (hb : s.busy = false)
    (hi : idx ≠ 0x00#8) : hostWrites idx v s = .next (writeRegister idx v s) := by
  rw [hostWrites_eq idx v hl, hostWrite_register v hb hi]

/-- Settles O13: the register at each index takes the value's low bits. -/
theorem hostWriteStoresRegister : Obligations.HostWriteStoresRegister := by
  intro s v hl hb
  have hw (idx : Byte) (hi : idx ≠ 0x00#8) := hostWrites_register v hl hb hi
  have hgpio : v.extractLsb' 4 2 = BitVec.ofNat 2 (v.toNat / 16) := by
    rw [BitVec.extractLsb', Nat.shiftRight_eq_div_pow]
  refine ⟨hw _ (by decide), hw _ (by decide), hw _ (by decide), hw _ (by decide), hw _ (by decide), hw _ (by decide),
    hw _ (by decide), hw _ (by decide), hw _ (by decide), hw _ (by decide), hw _ (by decide), hw _ (by decide), ?_,
    hw _ (by decide)⟩
  rw [← hgpio]
  exact hw _ (by decide)

/-- R15: the indices of the registers a host write can change. -/
def writableRegisters : List Nat :=
  [0x03, 0x04, 0x05, 0x09, 0x0A, 0x0B, 0x0C, 0x0D, 0x0E, 0x0F, 0x10, 0x11, 0x12, 0x13]

/-- R15: at any other index a host write stores a byte the host may write, or is ignored. -/
theorem writeRegister_other {idx : Byte} (v : U32) (s : State) (h : idx.toNat ∉ writableRegisters) :
    writeRegister idx v s =
      if hostWritable idx.toNat then { s with mem := Memory.set s.mem idx.toNat (v.extractLsb' 0 8) } else s := by
  unfold writeRegister
  split
  case h_15 => rfl
  all_goals
    rename_i hi
    simp [writableRegisters, hi] at h

theorem hostWritable_iff {n : Nat} : hostWritable n = true ↔ (0x20 ≤ n ∧ n ≤ 0x47) ∨ (0x70 ≤ n ∧ n ≤ 0x97) := by
  simp only [hostWritable, Bool.or_eq_true, Bool.and_eq_true, decide_eq_true_eq]
  omega

/-- R15: the registers lie below the buffers. -/
theorem not_mem_writableRegisters {n : Nat} (h : 0x14 ≤ n) : n ∉ writableRegisters := by
  simp only [writableRegisters, List.mem_cons, List.not_mem_nil, or_false]
  omega

theorem ne_zero_of_toNat {idx : Byte} (h : idx.toNat ≠ 0) : idx ≠ 0x00#8 := fun he => h (by simp [he])

/-- Settles O14: the byte is stored in the memory, which reads and keeps its form as `Memory.set` does. -/
theorem hostWriteStoresBufferByte : Obligations.HostWriteStoresBufferByte := by
  intro s idx v hl hb hrange
  have hw : writeRegister idx v s = { s with mem := Memory.set s.mem idx.toNat (v.extractLsb' 0 8) } := by
    rw [writeRegister_other v s (not_mem_writableRegisters (by omega)), if_pos (hostWritable_iff.2 hrange)]
  have hnext := hostWrites_register (idx := idx) v hl hb (ne_zero_of_toNat (by omega))
  refine ⟨_, hnext.trans (congrArg _ hw), fun a => ?_, fun hm => ?_⟩
  · exact Memory.get_set s.mem idx.toNat a (v.extractLsb' 0 8)
  · have hwf := wf_writeRegister (idx := idx) (v := v) hm
    rwa [hw] at hwf

/-- Settles O15: the index is of no writable register and of no byte the host may write. -/
theorem ignoredHostWrites : Obligations.IgnoredHostWrites := by
  intro s idx v hl hb hrange
  simp only [List.mem_cons, List.not_mem_nil, or_false] at hrange
  have hreg : idx.toNat ∉ writableRegisters := by
    simp only [writableRegisters, List.mem_cons, List.not_mem_nil, or_false]
    omega
  have hbuf : ¬hostWritable idx.toNat = true := by
    rw [hostWritable_iff]
    omega
  rw [hostWrites_register v hl hb (ne_zero_of_toNat (by omega)), writeRegister_other v s hreg, if_neg hbuf]

/-! ## Host reads -/

theorem toNat_append_eq_add {m n : Nat} (x : BitVec m) (y : BitVec n) :
    (x ++ y).toNat = x.toNat * 2 ^ n + y.toNat := by
  rw [BitVec.toNat_append, ← Nat.shiftLeft_add_eq_or_of_lt y.isLt, Nat.shiftLeft_eq]

@[simp] theorem bit_toNat (b : Bool) : (bit b).toNat = b.toNat := by cases b <;> rfl

/-- R16: the fields of `STATUS`. -/
theorem statusByte_toNat (s : State) :
    (statusByte s).toNat = s.err.toNat + s.busy.toNat * 16 + s.ok.toNat * 32 + s.fault.toNat * 128 := by
  simp only [statusByte, toNat_append_eq_add, bit_toNat, BitVec.toNat_ofNat]
  omega

/-- R18: the codes of `STATE`. -/
theorem stateByte_toNat (s : State) : (stateByte s).toNat = stateCode s.seq := by
  simp only [stateByte]
  cases s.seq <;> rfl

/-- R17: the fields of `CTRL`. -/
theorem ctrlByte_toNat (s : State) : (ctrlByte s).toNat = s.clkPresent.toNat + s.onInterrupt.toNat * 2 := by
  simp only [ctrlByte, toNat_append_eq_add, bit_toNat, BitVec.toNat_ofNat]
  omega

/-- R17: the fields of `NVC_FLAGS`, or the bits of the draw where they are unwritten. -/
theorem flagsByte_toNat (s : State) (draw : U32) :
    (flagsByte s draw).toNat =
      (s.numValid.getD (draw.extractLsb' 0 2)).toNat + (s.useSrc.getD (draw.getLsbD 2)).toNat * 4 +
        (s.onlyAbove5V.getD (draw.getLsbD 3)).toNat * 8 + (s.gpioCfg.getD (draw.extractLsb' 4 2)).toNat * 16 := by
  simp only [flagsByte, toNat_append_eq_add, bit_toNat, BitVec.toNat_ofNat]
  omega

/-- R17: bits 7:6 of `NVC_FLAGS` read 0. -/
theorem flagsByte_lt (s : State) (draw : U32) : (flagsByte s draw).toNat < 64 := by
  have hu := Bool.toNat_le (s.useSrc.getD (draw.getLsbD 2))
  have ho := Bool.toNat_le (s.onlyAbove5V.getD (draw.getLsbD 3))
  rw [flagsByte_toNat]
  omega

theorem toNat_setWidth_byte (b : Byte) : (b.setWidth 32).toNat = b.toNat := by simp; omega

theorem read16_some {r : Option U16} {x : U16} (h : r = some x) (draw : U32) : (read16 r draw).toNat = x.toNat := by
  simp [read16, h]
  omega

/-- R15: `CMD` and the reserved indices read 0. -/
theorem hostValue_reserved {idx : Byte} (s : State) (draw : U32)
    (h : idx.toNat = 0x00 ∨ (0x15 ≤ idx.toNat ∧ idx.toNat ≤ 0x1F) ∨ 0xC0 ≤ idx.toNat) :
    hostValue s idx draw = 0#32 := by
  unfold hostValue
  split
  case h_1 => rfl
  case h_22 => exact if_neg (by clear * - h; omega)
  all_goals omega

/-- R15: the buffer bytes. -/
theorem hostValue_buffer {idx : Byte} (s : State) (draw : U32) (h : 0x20 ≤ idx.toNat) (h' : idx.toNat < 0xC0) :
    hostValue s idx draw = bufferByte s idx.toNat draw := by
  unfold hostValue
  split
  case h_22 => rw [if_pos ⟨h, h'⟩]
  all_goals omega

/-- Settles O16: the value at each index is the register there. -/
theorem hostReadReturnsRegister : Obligations.HostReadReturnsRegister := by
  intro s idx hl
  have at16 {r : Option U16} {draw : U32} {x : U16} (hk : hostValue s idx draw = read16 r draw)
      (hr : r = some x) : (hostValue s idx draw).toNat = x.toNat := by rw [hk, read16_some hr]
  have at8 {draw : U32} {b : Byte} (hk : hostValue s idx draw = b.setWidth 32) :
      (hostValue s idx draw).toNat = b.toNat := by rw [hk, toNat_setWidth_byte]
  refine ⟨hostValue s idx (Config.unwrittenRead s.draws), hostReads_eq idx hl, hostValue_reserved s _, fun h => ?_,
    fun h => ?_, fun h => ?_, fun x h hx => ?_, fun x h hx => ?_, fun h => ?_, fun h => ?_, fun h => ?_,
    fun x h hx => ?_, fun x h hx => ?_, fun x h hx => ?_, fun x h hx => ?_, fun x h hx => ?_, fun x h hx => ?_,
    fun x h hx => ?_, fun x h hx => ?_, fun x h hx => ?_, fun n g u o h hn hu ho hg => ?_, fun h => ?_,
    fun x h hx => ?_, fun x h hx => ?_, fun b h h' hb => ?_⟩
  · rw [at8 (b := statusByte s) (by simp [hostValue, h]), statusByte_toNat]
  · rw [at8 (b := stateByte s) (by simp [hostValue, h]), stateByte_toNat]
  · rw [at8 (b := ctrlByte s) (by simp [hostValue, h]), ctrlByte_toNat]
  · simp [hostValue, h, hx]
  · simp [hostValue, h, hx]
  · simp [hostValue, h]
  · simp [hostValue, h]
  · simp [hostValue, h]
  · exact at16 (by simp [hostValue, h]) hx
  · exact at16 (by simp [hostValue, h]) hx
  · exact at16 (by simp [hostValue, h]) hx
  · exact at16 (by simp [hostValue, h]) hx
  · exact at16 (by simp [hostValue, h]) hx
  · exact at16 (by simp [hostValue, h]) hx
  · exact at16 (by simp [hostValue, h]) hx
  · exact at16 (by simp [hostValue, h]) hx
  · exact at16 (by simp [hostValue, h]) hx
  · rw [at8 (b := flagsByte s (Config.unwrittenRead s.draws)) (by simp only [hostValue, h]), flagsByte_toNat, hn, hu,
      ho, hg]
    rfl
  · rw [at8 (b := flagsByte s (Config.unwrittenRead s.draws)) (by simp only [hostValue, h])]
    exact flagsByte_lt s _
  · exact at8 (by simp [hostValue, h, hx])
  · exact at16 (by simp [hostValue, h]) hx
  · rw [hostValue_buffer s _ h h', bufferByte, hb, Option.getD_some, toNat_setWidth_byte]

end Sys2Proof.Machine
end

section
/-!
PROOFS about the issue of a command by a write of `CMD` (R25, R56, R98, R126, R138), and about the pure commands whose
operands are unwritten (R24, R58, R140).
-/

namespace Sys2Proof.Machine

/-! ## The NVM configuration -/

theorem HasNvmConfig.nvmConfig_eq {s : State} {c : NvmConfig} (h : HasNvmConfig s c) : nvmConfig s = some c := by
  obtain ⟨h1, h2, h3, h4, h5, h6, h7, h8, h9, h10⟩ := h
  simp [nvmConfig, h1, h2, h3, h4, h5, h6, h7, h8, h9, h10]

theorem LacksNvmConfig.nvmConfig_eq {s : State} (h : LacksNvmConfig s) : nvmConfig s = none := by
  by_contra hne
  obtain ⟨c, hc⟩ := Option.ne_none_iff_exists'.1 hne
  unfold nvmConfig at hc
  split at hc
  · split at hc
    · simp_all [LacksNvmConfig]
    · cases hc
  · cases hc

/-- R98: the validation is the four conditions of the rule. -/
theorem NvmConfig.valid_iff {c : NvmConfig} : c.valid = true ↔ InRange c := by
  have hn : c.numValid ≠ 0#2 ↔ 1 ≤ c.numValid.toNat ∧ c.numValid.toNat ≤ 3 := by
    rw [ne_eq, ← BitVec.toNat_inj]
    simp only [BitVec.toNat_ofNat]
    omega
  simp only [NvmConfig.valid, fixedCurrentFits, Bool.and_eq_true, bne_iff_ne, decide_eq_true_eq, hn, InRange]
  omega

/-! ## The issue -/

/-- R56: the writes of an issue, as the statements list them. -/
theorem issue_eq_issued (opc : BitVec 4) (st : SeqState) (s : State) : issue opc st s = issued opc st s := rfl

section Issue

variable {s : State} (h : Issuable s)
include h

/-- R56: a write of `CMD` runs the command of its byte. -/
theorem Issuable.hostWrites_command {v : U32} {i : Instr} (hd : decode [commandByte v] = .ok (i, [])) :
    hostWrites 0x00#8 v s = exec i s := by
  obtain ⟨hl, -, hb⟩ := h
  rw [hostWrites_eq _ v hl, hostWrite_command hb hd]

theorem Issuable.underCommand {opc : BitVec 4} {start body : State → Out} :
    underCommand opc start body s = start s := by
  obtain ⟨hl, hf, hb⟩ := h
  exact underCommand_issue hl hf hb

/-- R56: every command but NVM_FLASH is issued whatever its operands. -/
theorem Issuable.exec_eq {i : Instr} {opc : BitVec 4} (ho : opcodeOf i = some opc) (hi : i ≠ .nvmFlash) :
    exec i s = .next (issued opc (entryState i) s) := by
  obtain ⟨start, body, he, hstart⟩ := exec_eq_underCommand ho
  rw [he, h.underCommand, hstart hi, issue_eq_issued]

/-- R56, R98: NVM_FLASH in range is issued. -/
theorem Issuable.nvmFlash_valid {c : NvmConfig} (hc : HasNvmConfig s c) (hr : InRange c) :
    exec .nvmFlash s = .next (issued 10#4 .nvmReadImage s) := by
  have hissued : nvmConfig (issue 0xA#4 .nvmReadImage s) = some c := hc.nvmConfig_eq
  rw [exec, execNvmFlash, h.underCommand, issueFlash, validate, withOperand_of hissued,
    if_pos (NvmConfig.valid_iff.2 hr), issue_eq_issued]

/-- R98: NVM_FLASH out of range. -/
theorem Issuable.nvmFlash_invalid {c : NvmConfig} (hc : HasNvmConfig s c) (hr : ¬InRange c) :
    exec .nvmFlash s = .next (failedWith 9#4 (issued 10#4 .nvmReadImage s)) := by
  have hissued : nvmConfig (issue 0xA#4 .nvmReadImage s) = some c := hc.nvmConfig_eq
  rw [exec, execNvmFlash, h.underCommand, issueFlash, validate, withOperand_of hissued,
    if_neg (mt NvmConfig.valid_iff.1 hr)]
  rfl

/-- R24, R98: NVM_FLASH with an unwritten configuration. -/
theorem Issuable.nvmFlash_lacks (hc : LacksNvmConfig s) :
    exec .nvmFlash s = .next (faulted (issued 10#4 .nvmReadImage s)) := by
  have hnone : nvmConfig (issue 0xA#4 .nvmReadImage s) = none := hc.nvmConfig_eq
  rw [exec, execNvmFlash, h.underCommand, issueFlash, validate, hnone]
  rfl

end Issue

/-- Settles O17: the write of `CMD` meets the three checks of R56 in turn; past them the command is issued. -/
theorem commandIssue : Obligations.CommandIssue := by
  intro s v i hl hd
  refine ⟨fun hf => ?_, fun hb => ?_, fun hf hb => ⟨fun ho => ?_, fun opc ho hflash => ?_⟩⟩
  · rw [hostWrites_eq _ v hl]
    cases hb : s.busy with
    | true => rw [hostWrite_busy _ v hb, setFault_faulted hf]
    | false => rw [hostWrite_command hb hd, exec_faulted i hl hf]
  · rw [hostWrites_eq _ v hl, hostWrite_busy _ v hb]
    rfl
  · have hs : Issuable s := ⟨hl, hf, hb⟩
    obtain ⟨w, rfl⟩ := eq_illegalOpc_of_opcodeOf ho
    exact (hs.hostWrites_command hd).trans (hs.illegalOpc w)
  · have hs : Issuable s := ⟨hl, hf, hb⟩
    have hissue : exec i s = .next (issued opc (entryState i) s) := by
      by_cases hi : i = .nvmFlash
      · subst hi
        cases ho
        obtain ⟨c, hc, hr⟩ := hflash rfl
        exact hs.nvmFlash_valid hc hr
      · exact hs.exec_eq ho hi
    exact ⟨(hs.hostWrites_command hd).trans hissue, hissue⟩

/-- Settles O18: the byte 0x0A is NVM_FLASH, whose issue validates. -/
theorem flashIssueValidates : Obligations.FlashIssueValidates := by
  intro s v hs hv
  have hd : decode [commandByte v] = .ok (.nvmFlash, []) := by rw [commandByte_eq (w := 0x0A#8) hv]; rfl
  have both {o : Out} (ho : exec .nvmFlash s = o) : exec .nvmFlash s = o ∧ hostWrites 0x00#8 v s = o :=
    ⟨ho, (hs.hostWrites_command hd).trans ho⟩
  exact ⟨fun hc => both (hs.nvmFlash_lacks hc), fun c hc hr => both (hs.nvmFlash_invalid hc hr)⟩

/-! ## Unwritten operands of the pure commands -/

/-- R24: a block with an unwritten byte does not read. -/
theorem Memory.getBytes_eq_none {m : Memory} {a n j : Nat} (hj : j < n) (h : Memory.get m (a + j) = none) :
    Memory.getBytes m a n = none := by
  by_contra hne
  obtain ⟨bs, hbs⟩ := Option.ne_none_iff_exists'.1 hne
  obtain ⟨hlen, hget⟩ := Memory.getBytes_eq_some.1 hbs
  have hbyte : bs[j]? = none := (hget j hj).symm.trans h
  rw [List.getElem?_eq_none_iff, hlen] at hbyte
  omega

theorem ampVoltOperands_eq_none {s : State} (h : s.arg0 = none ∨ s.arg1 = none) : ampVoltOperands s = none := by
  unfold ampVoltOperands
  split <;> simp_all

theorem objectCount_eq (c : Byte) : objectCount c = c.toNat % 8 := by simp [objectCount]

theorem selectOperands_eq_none {s : State}
    (h : s.capCount = none ∨ s.negMinI = none ∨ s.negMinV = none ∨ s.negMaxV = none ∨
      ∃ c : Byte, s.capCount = some c ∧ ∃ j < 4 * (c.toNat % 8), Memory.get s.mem (capBase + j) = none) :
    selectOperands s = none := by
  have hneg (hn : s.negMinI = none ∨ s.negMinV = none ∨ s.negMaxV = none) : negConfig s = none := by
    unfold negConfig
    split <;> simp_all
  have hwords (hw : captureWords s = none) : selectOperands s = none := by simp [selectOperands, hw]
  rcases h with h | h | h | h | ⟨c, hc, j, hj, hget⟩
  · exact hwords (by simp [captureWords, h])
  · simp [selectOperands, hneg (.inl h)]
  · simp [selectOperands, hneg (.inr (.inl h))]
  · simp [selectOperands, hneg (.inr (.inr h))]
  · refine hwords ?_
    rw [← objectCount_eq] at hj
    simp [captureWords, hc, Memory.getBytes_eq_none hj hget]

theorem patchOperands_eq_none {s : State}
    (h : LacksNvmConfig s ∨ ∃ j < 40, Memory.get s.mem (scratchBase + j) = none) : patchOperands s = none := by
  rcases h with h | ⟨j, hj, hget⟩
  · simp [patchOperands, h.nvmConfig_eq]
  · have himg : bufferImage s.mem scratchBase = none := by simp [bufferImage, Memory.getBytes_eq_none hj hget]
    cases hc : nvmConfig s <;> simp [patchOperands, hc, himg]

/-- R24, R58: a pure command in progress whose operand is unwritten. -/
theorem InProgress.pureCommand_unwritten {α : Type} {opc : BitVec 4} {operand : State → Option α}
    {k : α → State → Out} {s : State} (hs : InProgress opc .exec s) (h : operand s = none) :
    pureCommand opc (fun s => withOperand (operand s) k s) s = .next (faulted s) := by
  rw [hs.pureCommand_body, h]
  rfl

/-- Settles O20: each command's operand is missing as soon as a part of it is. -/
theorem pureCommandFaultsOnUnwrittenOperand : Obligations.PureCommandFaultsOnUnwrittenOperand := by
  intro s
  refine ⟨fun hs h => hs.pureCommand_unwritten (operand := State.arg0) h, fun hs h => ?_, fun hs h => ?_,
    fun hs h => hs.pureCommand_unwritten (operand := State.arg0) h, fun hs h => ?_, fun hs h => ?_⟩
  · exact hs.pureCommand_unwritten (ampVoltOperands_eq_none h)
  · exact hs.pureCommand_unwritten (ampVoltOperands_eq_none h)
  · exact hs.pureCommand_unwritten (selectOperands_eq_none h)
  · exact hs.pureCommand_unwritten (patchOperands_eq_none h)

end Sys2Proof.Machine
end

section
/-!
PROOFS about what one micro-step can do: it issues no transaction, or one that its command may issue (R27, R29, R91); a
transaction that fails ends the command there (R28, R137, R139); and `ERR` takes no code but those of the command (R135,
R136). The commands are walked through once, for all four.
-/

namespace Sys2Proof.Machine

/-! ## What a micro-step may do -/

/-- R91: the writes of NEGOTIATE. -/
def NegotiateWrite (s : State) (reg : Byte) (bytes : List Byte) : Prop :=
  ((s.seq = .sendSoftReset ∨ s.seq = .renegotiate) ∧
    ((s.mstep = 0#8 ∧ reg = s.profile.regTxHeader ∧ bytes = [s.profile.softResetHdr]) ∨
      (s.mstep = 1#8 ∧ reg = s.profile.regPdCmd ∧ bytes = [s.profile.pdCmdSend]))) ∨
  (s.seq = .commit ∧ reg = s.profile.regSnkPdo3 ∧ bytes.length = 4)

/-- R27, R91: the transactions a command may issue at a state. -/
def MayIssue (i : Instr) (s : State) : BusReq → Prop
  | .read _ n =>
    n = 1 ∨ n = 2 ∨ n = 8 ∨ (s.seq = .capture ∧ ∃ c : Byte, s.capCount = some c ∧ n = 4 * objectCount c)
  | .write reg bytes =>
    if i = .negotiate then NegotiateWrite s reg bytes else bytes.length = 1 ∨ bytes.length = 8

/-- R135, R136: what a step of a command may do to `ERR`. -/
def ErrorAllowed (i : Instr) (s t : State) : Prop :=
  t.err = s.err ∨ t.err = 0#4 ∨
  (t.err ∈ errorsOf i ∧ (t.err = 3#4 ∨ t.err = 4#4 → s.clkPresent = true) ∧
    (i = .nvmRead ∨ i = .nvmFlash → t.err = 3#4 → s.profile.nvmAckBudgetMs ≠ none))

/-- A move without a transaction. -/
structure Silent (i : Instr) (s t : State) : Prop where
  trace : t.trace = s.trace
  profile : t.profile = s.profile
  error : ErrorAllowed i s t

/-- A step that issues the transaction `req` (R27, R28, R137). -/
structure Issues (i : Instr) (s : State) (req : BusReq) (t : State) : Prop where
  allowed : MayIssue i s req
  trace : t.trace = s.trace ++ [busEvent s req]
  profile : t.profile = s.profile
  error : ErrorAllowed i s t
  failed : icAnswer s req = .fail → t = failedWith (if s.seq = .presence then 2#4 else 1#4) (afterBus s req)

/-- R29: one micro-step. -/
def Micro (i : Instr) (s t : State) : Prop := Silent i s t ∨ ∃ req, Issues i s req t

theorem Silent.of_err {i : Instr} {s t : State} (ht : t.trace = s.trace) (hp : t.profile = s.profile)
    (he : t.err = s.err ∨ t.err = 0#4) : Silent i s t :=
  ⟨ht, hp, he.imp_right .inl⟩

/-- R137: the errors that need no clock. -/
theorem Silent.raise {i : Instr} {s t : State} {e : ErrCode} (ht : t.trace = s.trace) (hp : t.profile = s.profile)
    (he : errNumber e ∈ errorsOf i) (hclk : errNumber e ≠ 3#4 ∧ errNumber e ≠ 4#4) : Silent i s (raise e t) := by
  refine ⟨ht, hp, .inr (.inr ⟨he, fun h => ?_, fun _ h => absurd h hclk.1⟩)⟩
  exact absurd h (not_or.2 hclk)

/-- A silent move after a transaction that does not fail. -/
theorem Silent.micro_afterBus {i : Instr} {s t : State} {req : BusReq} {bytes : List Byte} (hreq : MayIssue i s req)
    (ha : icAnswer s req = .ok bytes) (h : Silent i (afterBus s req) t) : Micro i s t :=
  .inr ⟨req, hreq, h.trace, h.profile, h.error, fun hf => by cases ha.symm.trans hf⟩

/-! ## The shared operations -/

theorem Sat.mono {P Q : State → Prop} {o : Out} (h : Sat P o) (hpq : ∀ t, P t → Q t) : Sat Q o :=
  fun t ht => hpq t (h t ht)

theorem sat_withOperand {P : State → Prop} {α : Type} {operand : Option α} {k : α → State → Out} {s : State}
    (hf : P (setFault s)) (hk : ∀ v, operand = some v → Sat P (k v s)) : Sat P (withOperand operand k s) := by
  unfold withOperand
  split
  · exact sat_next.2 hf
  · exact hk _ rfl

section Operations

variable {i : Instr} {s : State}

theorem silent_setFault : Silent i s (setFault s) := .of_err rfl rfl (.inl rfl)

theorem sat_withOperand_micro {α : Type} {operand : Option α} {k : α → State → Out}
    (hk : ∀ v, operand = some v → Sat (Micro i s) (k v s)) : Sat (Micro i s) (withOperand operand k s) :=
  sat_withOperand (.inl silent_setFault) hk

/-- R137: a transaction that fails with `BusError`. -/
theorem micro_busError {req : BusReq} (hreq : MayIssue i s req) (hseq : s.seq ≠ .presence) (herr : 1#4 ∈ errorsOf i) :
    Micro i s (raise .busError (afterBus s req)) := by
  have hsilent : Silent i (afterBus s req) (raise .busError (afterBus s req)) := .raise rfl rfl herr (by decide)
  exact .inr ⟨req, hreq, hsilent.trace, hsilent.profile, hsilent.error, fun _ => by rw [if_neg hseq]; rfl⟩

theorem sat_busRead_micro {reg : Byte} {n : Nat} {k : List Byte → State → Out} (hreq : MayIssue i s (.read reg n))
    (hseq : s.seq ≠ .presence) (herr : 1#4 ∈ errorsOf i)
    (hk : ∀ bytes, Sat (Silent i (afterBus s (.read reg n))) (k bytes (afterBus s (.read reg n)))) :
    Sat (Micro i s) (busRead reg n k s) := by
  cases ha : icAnswer s (.read reg n) with
  | fail =>
    rw [busRead_fail ha]
    exact sat_next.2 (micro_busError hreq hseq herr)
  | ok bytes =>
    rw [busRead_ok ha]
    exact (hk bytes).mono fun t ht => ht.micro_afterBus hreq ha

theorem sat_busWrite_micro {reg : Byte} {w : List Byte} {k : State → State} (hreq : MayIssue i s (.write reg w))
    (hseq : s.seq ≠ .presence) (herr : 1#4 ∈ errorsOf i)
    (hk : Silent i (afterBus s (.write reg w)) (k (afterBus s (.write reg w)))) :
    Sat (Micro i s) (busWrite reg w (fun t => .next (k t)) s) := by
  cases ha : icAnswer s (.write reg w) with
  | fail =>
    rw [busWrite_fail ha]
    exact sat_next.2 (micro_busError hreq hseq herr)
  | ok bytes =>
    rw [busWrite_ok ha]
    exact sat_next.2 (hk.micro_afterBus hreq ha)

/-- R78, R147: only a poll that has a clock and a budget can expire. -/
theorem sat_timeCheck_silent {budget : Option Nat} {e : ErrCode} {again : State → State}
    (herr : errNumber e ∈ errorsOf i) (hbudget : i = .nvmRead ∨ i = .nvmFlash → budget = s.profile.nvmAckBudgetMs)
    (hagain : ∀ t, Silent i t (again t)) : Sat (Silent i s) (timeCheck budget e again s) := by
  have hnow : Silent i s (again (afterNow s)) := by
    obtain ⟨ht, hp, he⟩ := hagain (afterNow s)
    exact ⟨by simpa using ht, by simpa using hp, by simpa [ErrorAllowed] using he⟩
  cases hbound : bound s budget with
  | none =>
    rw [timeCheck_unbounded hbound]
    exact sat_next.2 (hagain s)
  | some limit =>
    have hclk : s.clkPresent = true ∧ budget = some limit := by simpa [bound] using hbound
    obtain ⟨hclk, rfl⟩ := hclk
    by_cases hx : limit < (clockNow s - s.tStart).toNat
    · rw [timeCheck_exceeded hbound hx]
      refine sat_next.2 ⟨by simp, by simp, .inr (.inr ⟨herr, fun _ => hclk, fun hi _ => ?_⟩)⟩
      exact Option.ne_none_iff_exists'.2 ⟨limit, (hbudget hi).symm⟩
    · rw [timeCheck_within hbound (Nat.not_lt.1 hx)]
      exact sat_next.2 hnow

theorem sat_pollRead_micro {reg : Byte} {done : Byte → Bool} {budget : Option Nat} {e : ErrCode} {k : State → State}
    (hseq : s.seq ≠ .presence) (hbus : 1#4 ∈ errorsOf i) (herr : errNumber e ∈ errorsOf i)
    (hbudget : i = .nvmRead ∨ i = .nvmFlash → budget = s.profile.nvmAckBudgetMs) (hk : ∀ t, Silent i t (k t)) :
    Sat (Micro i s) (pollRead reg done budget e k s) := by
  refine sat_busRead_micro (.inl rfl) hseq hbus fun bytes => ?_
  split
  · exact sat_next.2 (hk _)
  · exact sat_timeCheck_silent herr hbudget fun t => .of_err rfl rfl (.inl rfl)

theorem silent_pollStart {budget : Option Nat} {k : State → State} (hk : ∀ t, Silent i t (k t)) :
    Silent i s (k (pollStart budget s)) := by
  obtain ⟨ht, hp, he⟩ := hk (pollStart budget s)
  exact ⟨by simpa using ht, by simpa using hp, by simpa [ErrorAllowed] using he⟩

theorem silent_goto (st : SeqState) (t : State) : Silent i t (goto st t) := .of_err rfl rfl (.inl rfl)

theorem silent_advance (t : State) : Silent i t (advance t) := .of_err rfl rfl (.inl rfl)

theorem silent_endOk (t : State) : Silent i t (endOk t) := .of_err rfl rfl (.inr rfl)

end Operations

end Sys2Proof.Machine
end

section
/-!
PROOFS that every command takes a micro-step as D1 describes: one lemma per sequencer state, and one for the lists of
NVM primitives.
-/

namespace Sys2Proof.Machine

/-! ## The pure commands -/

section Pure

variable {i : Instr} {s : State}

/-- R58: an operand, and an end with results. -/
theorem sat_pureResults_micro {α : Type} {operand : Option α} {r0 r1 r2 : α → State → U32} :
    Sat (Micro i s) (withOperand operand
      (fun v s => .next (endOk { s with res0 := r0 v s, res1 := r1 v s, res2 := r2 v s })) s) :=
  sat_withOperand_micro fun _ _ => sat_next.2 (.inl (.of_err rfl rfl (.inr rfl)))

theorem sat_withSelection_micro {k : U32 → Selection → State → Out} (herr : 7#4 ∈ errorsOf i)
    (hk : ∀ w sel, Sat (Silent i s) (k w sel (keepSelection sel s))) : Sat (Micro i s) (withSelection k s) := by
  refine sat_withOperand_micro fun ops _ => ?_
  dsimp only
  split
  · exact (hk _ _).mono fun _ => .inl
  · exact sat_next.2 (.inl (.raise rfl rfl herr (by decide)))

end Pure

/-! ## PRESENCE and NEGOTIATE -/

/-- R81: the bus failure of the presence read is `NotPresent`. -/
theorem sat_presenceStep_micro {i : Instr} {s : State} {k : State → State} (hq : s.seq = .presence)
    (herr : 2#4 ∈ errorsOf i) (hk : ∀ t, Silent i t (k t)) : Sat (Micro i s) (presenceStep k s) := by
  have hreq : MayIssue i s (.read s.profile.regDeviceId 1) := .inl rfl
  cases ha : icAnswer s (.read s.profile.regDeviceId 1) with
  | fail =>
    rw [presenceStep_busFail ha]
    have hsilent : Silent i s (raise .notPresent s) := .raise rfl rfl herr (by decide)
    exact sat_next.2 (.inr ⟨_, hreq, rfl, rfl, hsilent.error, fun _ => by rw [if_pos hq]⟩)
  | ok bytes =>
    rw [presenceStep, busReadOr_ok ha]
    dsimp only
    split
    · exact sat_next.2 (Silent.micro_afterBus hreq ha ⟨(hk _).trace, (hk _).profile, (hk _).error⟩)
    · exact sat_next.2 (Silent.micro_afterBus hreq ha (.raise rfl rfl herr (by decide)))

section Negotiate

variable {s : State}

theorem mayIssue_negotiate_write {reg : Byte} {bytes : List Byte} (h : NegotiateWrite s reg bytes) :
    MayIssue .negotiate s (.write reg bytes) := by
  simpa [MayIssue] using h

theorem sat_waitAttachStep_micro (hq : s.seq = .waitAttach) : Sat (Micro .negotiate s) (waitAttachStep s) := by
  unfold waitAttachStep
  split
  · exact sat_next.2 (.inl (silent_pollStart silent_advance))
  · refine sat_pollRead_micro (by simp [hq]) (by decide) (by decide) nofun fun t => ?_
    split
    · exact silent_goto _ t
    · exact silent_goto _ t
  · exact sat_fault

theorem sat_sinkReadyStep_micro (hq : s.seq = .sinkReadyWait) : Sat (Micro .negotiate s) (sinkReadyStep s) := by
  unfold sinkReadyStep
  split
  · exact sat_next.2 (.inl (silent_pollStart silent_advance))
  · exact sat_pollRead_micro (by simp [hq]) (by decide) (by decide) nofun (silent_goto _)
  · exact sat_fault

theorem sat_softResetStep_micro {k : State → State} (hq : s.seq = .sendSoftReset ∨ s.seq = .renegotiate)
    (hk : ∀ t, Silent .negotiate t (k t)) : Sat (Micro .negotiate s) (softResetStep k s) := by
  have hne : s.seq ≠ .presence := by rcases hq with hq | hq <;> simp [hq]
  unfold softResetStep
  split
  · rename_i hm
    have hm : s.mstep = 0#8 := BitVec.eq_of_toNat_eq hm
    have hreq := mayIssue_negotiate_write (.inl ⟨hq, .inl ⟨hm, rfl, rfl⟩⟩)
    exact sat_busWrite_micro hreq hne (by decide) (silent_advance _)
  · rename_i hm
    have hm : s.mstep = 1#8 := BitVec.eq_of_toNat_eq hm
    have hreq := mayIssue_negotiate_write (.inl ⟨hq, .inr ⟨hm, rfl, rfl⟩⟩)
    exact sat_busWrite_micro hreq hne (by decide) (hk _)
  · exact sat_fault

theorem sat_waitCapsStep_micro (hq : s.seq = .waitCaps) : Sat (Micro .negotiate s) (waitCapsStep s) := by
  have hne : s.seq ≠ .presence := by simp [hq]
  unfold waitCapsStep
  split
  · exact sat_next.2 (.inl (silent_pollStart silent_advance))
  · refine sat_busRead_micro (.inl rfl) hne (by decide) fun bytes => ?_
    split
    · exact sat_next.2 (.of_err rfl rfl (.inl rfl))
    · exact sat_next.2 (.of_err rfl rfl (.inl rfl))
  · refine sat_busRead_micro (.inr (.inl rfl)) hne (by decide) fun bytes => ?_
    dsimp only
    split
    · exact sat_next.2 (.of_err rfl rfl (.inl rfl))
    · exact sat_next.2 (.of_err rfl rfl (.inl rfl))
  · refine sat_withOperand_micro fun h _ => sat_busRead_micro (.inl rfl) hne (by decide) fun bytes => ?_
    dsimp only
    split
    · exact sat_next.2 (.raise rfl rfl (by decide) (by decide))
    · exact sat_next.2 (.of_err rfl rfl (.inl rfl))
  · exact Sat.mono (P := Silent .negotiate s)
      (sat_timeCheck_silent (by decide) nofun fun t => .of_err rfl rfl (.inl rfl)) fun _ => .inl
  · exact sat_fault

theorem sat_captureStep_micro (hq : s.seq = .capture) : Sat (Micro .negotiate s) (captureStep s) := by
  refine sat_withOperand_micro fun n hn => ?_
  refine sat_busRead_micro (.inr (.inr (.inr ⟨hq, n, hn, rfl⟩))) (by simp [hq]) (by decide) fun bytes => ?_
  exact sat_next.2 (.of_err rfl rfl (.inl rfl))

theorem sat_commitStep_micro (hq : s.seq = .commit) : Sat (Micro .negotiate s) (commitStep s) :=
  sat_busWrite_micro (mayIssue_negotiate_write (.inr ⟨hq, rfl, rfl⟩)) (by simp [hq]) (by decide) (silent_goto _ _)

theorem sat_negotiateStep_micro : Sat (Micro .negotiate s) (negotiateStep s) := by
  unfold negotiateStep
  split
  case h_1 hq => exact sat_presenceStep_micro hq (by decide) (silent_goto _)
  case h_2 hq => exact sat_waitAttachStep_micro hq
  case h_3 hq => exact sat_sinkReadyStep_micro hq
  case h_4 hq => exact sat_softResetStep_micro (.inl hq) (silent_goto _)
  case h_5 hq => exact sat_waitCapsStep_micro hq
  case h_6 hq => exact sat_captureStep_micro hq
  case h_7 hq => exact sat_withSelection_micro (by decide) fun _ _ => sat_next.2 (.of_err rfl rfl (.inl rfl))
  case h_8 hq => exact sat_commitStep_micro hq
  case h_9 hq => exact sat_softResetStep_micro (.inr hq) fun t => .of_err rfl rfl (.inr rfl)
  case h_10 => exact sat_fault

end Negotiate

/-! ## The NVM commands -/

/-- R115 to R125: the bytes a primitive writes are one, or the eight of a sector. -/
def NvmOp.ShortWrite : NvmOp → Prop
  | .write _ bytes => bytes.length = 1
  | .openSector _ _ bytes => bytes.length = 1
  | _ => True

section Nvm

variable {i : Instr} {s : State} (hi : i = .nvmRead ∨ i = .nvmFlash)
include hi

theorem mayIssue_nvm_write {reg : Byte} {bytes : List Byte} (h : bytes.length = 1 ∨ bytes.length = 8) :
    MayIssue i s (.write reg bytes) := by
  rcases hi with rfl | rfl <;> simpa [MayIssue] using h

theorem sat_nvmOpStep_micro {op : NvmOp} {k : State → State} (hq : s.seq ≠ .presence)
    (hop : op.ShortWrite) (hk : ∀ t, Silent i t (k t)) :
    Sat (Micro i s) (nvmOpStep op k s) := by
  have hbus : 1#4 ∈ errorsOf i := by rcases hi with rfl | rfl <;> decide
  have htimeout : 3#4 ∈ errorsOf i := by rcases hi with rfl | rfl <;> decide
  cases op with
  | write reg bytes => exact sat_busWrite_micro (mayIssue_nvm_write hi (.inl hop)) hq hbus (hk _)
  | openSector n reg bytes =>
    have hnext := hk { afterBus s (.write reg bytes) with sect := n }
    exact sat_busWrite_micro (k := fun t => k { t with sect := n }) (mayIssue_nvm_write hi (.inl hop)) hq hbus
      ⟨hnext.trace, hnext.profile, hnext.error⟩
  | loadSector n =>
    refine sat_withOperand_micro fun bytes hbytes => ?_
    have hnext := hk { afterBus s (.write s.profile.regNvmRwbuf bytes) with sect := n }
    exact sat_busWrite_micro (k := fun t => k { t with sect := n })
      (mayIssue_nvm_write hi (.inr (Memory.getBytes_length hbytes))) hq hbus
      ⟨hnext.trace, hnext.profile, hnext.error⟩
  | ackStart => exact sat_next.2 (.inl (silent_pollStart hk))
  | ackPoll => exact sat_pollRead_micro hq hbus htimeout (fun _ => rfl) hk
  | readSector base =>
    rw [nvmOpStep]
    split
    · exact sat_fault
    · refine sat_busRead_micro (.inr (.inr (.inl rfl))) hq hbus fun bytes => sat_next.2 ?_
      have hnext := hk (storeSect base bytes (afterBus s (.read s.profile.regNvmRwbuf 8)))
      exact ⟨hnext.trace, hnext.profile, hnext.error⟩

theorem sat_nvmListStep_micro {ops : List NvmOp} {leave : State → State} (hq : s.seq ≠ .presence)
    (hops : ∀ op ∈ ops, op.ShortWrite) (hleave : ∀ t, Silent i t (leave t)) :
    Sat (Micro i s) (nvmListStep ops leave s) := by
  cases hop : ops[s.mstep.toNat]? with
  | none =>
    rw [nvmListStep, hop]
    exact sat_fault
  | some op =>
    rw [nvmListStep_at hop]
    refine sat_nvmOpStep_micro hi hq (hops op (List.mem_of_getElem? hop)) fun t => ?_
    split
    · exact silent_advance t
    · exact hleave t

end Nvm

theorem readImageOps_shortWrite (p : DeviceProfile) (base : Nat) : ∀ op ∈ readImageOps p base, op.ShortWrite := by
  simp [readImageOps, enterReadMode, readSectorOps, issueOp, exitOps, sectors, unlock, ctrlReset, powerOn,
    NvmOp.ShortWrite]

theorem enterWriteMode_shortWrite (p : DeviceProfile) : ∀ op ∈ enterWriteMode p, op.ShortWrite := by
  simp [enterWriteMode, issueOp, unlock, ctrlReset, powerOn, NvmOp.ShortWrite]

theorem programOps_shortWrite (p : DeviceProfile) : ∀ op ∈ programOps p, op.ShortWrite := by
  simp [programOps, writeSectorOps, issueOp, sectors, powerOn, NvmOp.ShortWrite]

theorem exitOps_shortWrite (p : DeviceProfile) : ∀ op ∈ exitOps p, op.ShortWrite := by
  simp [exitOps, NvmOp.ShortWrite]

theorem sat_flashStep_micro {s : State} : Sat (Micro .nvmFlash s) (flashStep s) := by
  have list {ops : List NvmOp} {next : SeqState} (hq : s.seq ≠ .presence) (hops : ∀ op ∈ ops, op.ShortWrite) :
      Sat (Micro .nvmFlash s) (nvmListStep ops (goto next) s) :=
    sat_nvmListStep_micro (.inr rfl) hq hops (silent_goto next)
  unfold flashStep
  split
  case h_1 hq => exact list (by simp [hq]) (readImageOps_shortWrite _ _)
  case h_2 =>
    exact sat_withOperand_micro fun _ _ => sat_withOperand_micro fun _ _ =>
      sat_next.2 (.inl (.of_err rfl rfl (.inl rfl)))
  case h_3 hq => exact list (by simp [hq]) (enterWriteMode_shortWrite _)
  case h_4 hq => exact list (by simp [hq]) (programOps_shortWrite _)
  case h_5 hq => exact list (by simp [hq]) (exitOps_shortWrite _)
  case h_6 hq => exact list (by simp [hq]) (readImageOps_shortWrite _ _)
  case h_7 =>
    refine sat_withOperand_micro fun _ _ => sat_withOperand_micro fun _ _ => ?_
    split
    · exact sat_next.2 (.inl (silent_endOk s))
    · exact sat_next.2 (.inl (.raise rfl rfl (by decide) (by decide)))
  case h_8 => exact sat_fault

/-! ## Every command -/

/-- What a command may do at a state: nothing of the bus unless it is in progress. -/
def CommandStep (i : Instr) (s t : State) : Prop :=
  Silent i s t ∨ (s.busy = true ∧ s.fault = false ∧ ∃ req, Issues i s req t)

theorem sat_underCommand_step {i : Instr} {opc : BitVec 4} {start body : State → Out} {s : State}
    (hstart : Sat (Silent i s) (start s)) (hbody : Sat (Micro i s) (body s)) :
    Sat (CommandStep i s) (underCommand opc start body s) := by
  unfold underCommand
  split
  · exact sat_refused
  · split
    · exact sat_next.2 (.inl (.of_err rfl rfl (.inl rfl)))
    · rename_i hf
      split
      · exact hstart.mono fun _ => .inl
      · rename_i hb
        split
        · exact hbody.mono fun t ht => ht.imp_right fun h => ⟨by simpa using hb, by simpa using hf, h⟩
        · exact sat_next.2 (.inl silent_setFault)

theorem silent_issue {i : Instr} {s : State} (opc : BitVec 4) (st : SeqState) : Silent i s (issue opc st s) :=
  .of_err rfl rfl (.inr rfl)

/-- R56: a command whose issue makes its writes alone. -/
theorem sat_issuedCommand_step {i : Instr} {opc : BitVec 4} {st : SeqState} {body : State → Out} {s : State}
    (hbody : Sat (Micro i s) (body s)) :
    Sat (CommandStep i s) (underCommand opc (fun s => .next (issue opc st s)) body s) := by
  refine sat_underCommand_step ?_ hbody
  exact sat_next.2 (silent_issue opc st)

theorem sat_pureCommand_step {i : Instr} {opc : BitVec 4} {body : State → Out} {s : State}
    (hbody : Sat (Micro i s) (body s)) : Sat (CommandStep i s) (pureCommand opc body s) := by
  refine sat_issuedCommand_step ?_
  split
  · exact hbody
  · exact sat_fault

theorem sat_issueFlash_silent {s : State} : Sat (Silent .nvmFlash s) (issueFlash s) := by
  rw [issueFlash, validate]
  refine sat_withOperand (.of_err rfl rfl (.inr rfl)) fun c _ => ?_
  split
  · exact sat_next.2 (silent_issue _ _)
  · exact sat_next.2 (.raise rfl rfl (by decide) (by decide))

theorem sat_exec_commandStep (i : Instr) (s : State) : Sat (CommandStep i s) (exec i s) := by
  cases i with
  | pdoDecode => exact sat_pureCommand_step sat_pureResults_micro
  | pdoEncode => exact sat_pureCommand_step sat_pureResults_micro
  | pdoPower => exact sat_pureCommand_step sat_pureResults_micro
  | hdrClassify => exact sat_pureCommand_step sat_pureResults_micro
  | pdoSelect =>
    refine sat_pureCommand_step (sat_withSelection_micro (by decide) fun _ _ => ?_)
    exact sat_next.2 (.of_err rfl rfl (.inr rfl))
  | presence =>
    rw [exec, execPresence]
    refine sat_issuedCommand_step ?_
    split
    · exact sat_presenceStep_micro ‹_› (by decide) silent_endOk
    · exact sat_fault
  | negotiate => exact sat_issuedCommand_step sat_negotiateStep_micro
  | nvmRead =>
    rw [exec, execNvmRead]
    refine sat_issuedCommand_step ?_
    split
    · exact sat_nvmListStep_micro (.inl rfl) (by simp [*]) (readImageOps_shortWrite _ _) silent_endOk
    · exact sat_fault
  | nvmPatch =>
    refine sat_pureCommand_step (sat_withOperand_micro fun ops _ => ?_)
    split
    · exact sat_next.2 (.inl (.of_err rfl rfl (.inr rfl)))
    · exact sat_next.2 (.inl (.raise rfl rfl (by decide) (by decide)))
  | nvmFlash => exact sat_underCommand_step sat_issueFlash_silent sat_flashStep_micro
  | illegalOpc w =>
    rw [exec, execIllegalOpc]
    split
    · exact sat_refused
    · split
      · exact sat_next.2 (.inl (.of_err rfl rfl (.inl rfl)))
      · split
        · exact sat_next.2 (.inl silent_setFault)
        · exact sat_next.2 (.inl (.raise rfl rfl (by simp [errNumber, errorsOf]) (by decide)))

end Sys2Proof.Machine
end

section
/-!
PROOFS from what a micro-step can do: failed transactions (R137, R139), the errors of each command (R135, R136), the
write set of NEGOTIATE (R91), and the rules of the whole machine (R6, R16, R27, R29).
-/

namespace Sys2Proof.Machine

/-! ## Failed transactions and errors -/

/-- The transaction of a step is the one its history records. -/
theorem Issues.of_trace {i : Instr} {s t : State} {e : BusEvent} (h : CommandStep i s t)
    (he : t.trace = s.trace ++ [e]) :
    s.busy = true ∧ s.fault = false ∧ e = busEvent s e.req ∧ Issues i s e.req t := by
  rcases h with h | ⟨hb, hf, req, h⟩
  · simp [h.trace] at he
  · have hevent : busEvent s req = e := by simpa [h.trace] using he
    subst hevent
    exact ⟨hb, hf, rfl, h⟩

/-- Settles O55: the step issues the recorded transaction, and what it leaves when that fails is the failing end. -/
theorem busFailureEndsTheCommand : Obligations.BusFailureEndsTheCommand := by
  intro i s t e hexec htrace hfail
  obtain ⟨-, -, hevent, hissues⟩ := Issues.of_trace (sat_exec_commandStep i s t hexec) htrace
  rw [hevent] at hfail
  exact hissues.failed hfail

/-- Settles O56: with or without a transaction, `ERR` takes no other code. -/
theorem errorsAllowedPerCommand : Obligations.ErrorsAllowedPerCommand := by
  intro i s t hexec
  have herror : ErrorAllowed i s t := by
    rcases sat_exec_commandStep i s t hexec with h | ⟨-, -, req, h⟩
    · exact h.error
    · exact h.error
  exact herror

/-! ## The writes and the moves of NEGOTIATE -/

theorem legal_of_exec {i : Instr} {s t : State} (h : exec i s = .next t) : s.profile.legal = true := by
  by_contra hl
  rw [exec_illegalProfile i (by simpa using hl)] at h
  cases h

/-- R25: a command that issues a transaction is the one in progress. -/
theorem curCmd_of_trace {i : Instr} {opc : BitVec 4} {s t : State} (ho : opcodeOf i = some opc)
    (h : exec i s = .next t) (hb : s.busy = true) (ht : t.trace ≠ s.trace) : s.curCmd = opc := by
  by_contra hc
  have hfault := commandDuringAnotherFaults s i (legal_of_exec h) hb (by simpa [ho] using Ne.symm hc)
  cases h.symm.trans hfault
  exact ht rfl

/-- R83: where a micro-step of NEGOTIATE leaves the sequencer. -/
def negotiateSuccessors : SeqState → List SeqState
  | .presence => [.waitAttach, .failed]
  | .waitAttach => [.waitAttach, .sinkReadyWait, .waitCaps, .failed]
  | .sinkReadyWait => [.sinkReadyWait, .sendSoftReset, .failed]
  | .sendSoftReset => [.sendSoftReset, .waitCaps, .failed]
  | .waitCaps => [.waitCaps, .capture, .failed]
  | .capture => [.capture, .select, .failed]
  | .select => [.select, .commit, .failed]
  | .commit => [.renegotiate, .failed]
  | .renegotiate => [.renegotiate, .done, .failed]
  | _ => []

/-- The sequencer state after a step is one of these. -/
def SeqIn (l : List SeqState) (t : State) : Prop := t.seq ∈ l

theorem sat_waitAttachStep_seq {s : State} (hq : s.seq = .waitAttach) :
    Sat (SeqIn [.waitAttach, .sinkReadyWait, .waitCaps, .failed]) (waitAttachStep s) := by
  unfold waitAttachStep
  split
  · simp [SeqIn, hq]
  · refine (post_pollRead ?_ ?_ ?_ ?_ ?_).sat
    · simp [SeqIn]
    · split <;> simp [SeqIn]
    · simp [SeqIn, hq]
    · simp [SeqIn, hq]
    · simp [SeqIn]
  · exact sat_fault

theorem sat_sinkReadyStep_seq {s : State} (hq : s.seq = .sinkReadyWait) :
    Sat (SeqIn [.sinkReadyWait, .sendSoftReset, .failed]) (sinkReadyStep s) := by
  unfold sinkReadyStep
  split
  · simp [SeqIn, hq]
  · refine (post_pollRead ?_ ?_ ?_ ?_ ?_).sat
    · simp [SeqIn]
    · simp [SeqIn]
    · simp [SeqIn, hq]
    · simp [SeqIn, hq]
    · simp [SeqIn]
  · exact sat_fault

theorem sat_softResetStep_seq {s : State} {k : State → State} {next : SeqState} (hk : ∀ t, (k t).seq = next) :
    Sat (SeqIn [s.seq, next, .failed]) (softResetStep k s) := by
  unfold softResetStep
  split
  · exact (post_busWrite (by simp [SeqIn]) (by simp [SeqIn])).sat
  · exact (post_busWrite (by simp [SeqIn]) (by simp [SeqIn, hk])).sat
  · exact sat_fault

theorem sat_waitCapsStep_seq {s : State} (hq : s.seq = .waitCaps) :
    Sat (SeqIn [.waitCaps, .capture, .failed]) (waitCapsStep s) := by
  unfold waitCapsStep
  split
  · simp [SeqIn, hq]
  · refine (post_busRead (by simp [SeqIn]) fun bytes _ _ => ?_).sat
    split <;> simp [SeqIn, hq]
  · refine (post_busRead (by simp [SeqIn]) fun bytes _ _ => ?_).sat
    dsimp only
    split <;> simp [SeqIn, hq]
  · refine (post_withOperand (by simp [SeqIn, setFault, hq]) fun h _ => ?_).sat
    refine post_busRead (by simp [SeqIn]) fun bytes _ _ => ?_
    dsimp only
    split <;> simp [SeqIn]
  · exact (post_timeCheck (by simp [SeqIn, hq]) (by simp [SeqIn, hq]) (by simp [SeqIn])).sat
  · exact sat_fault

theorem sat_negotiateStep_seq {s : State} : Sat (SeqIn (negotiateSuccessors s.seq)) (negotiateStep s) := by
  unfold negotiateStep
  split
  case h_1 hq =>
    rw [hq]
    refine (post_busReadOr (fun _ => by simp [SeqIn, negotiateSuccessors]) fun bytes _ _ => ?_).sat
    dsimp only
    split <;> simp [SeqIn, negotiateSuccessors]
  case h_2 hq =>
    rw [hq]
    exact sat_waitAttachStep_seq hq
  case h_3 hq =>
    rw [hq]
    exact sat_sinkReadyStep_seq hq
  case h_4 hq =>
    rw [hq, negotiateSuccessors, ← hq]
    exact sat_softResetStep_seq fun _ => rfl
  case h_5 hq =>
    rw [hq]
    exact sat_waitCapsStep_seq hq
  case h_6 hq =>
    rw [hq]
    refine (post_withOperand (by simp [SeqIn, setFault, hq, negotiateSuccessors]) fun n _ => ?_).sat
    exact post_busRead (by simp [SeqIn, negotiateSuccessors]) fun bytes _ _ => by simp [SeqIn, negotiateSuccessors]
  case h_7 hq =>
    rw [hq, selectStep, withSelection]
    refine (post_withOperand (by simp [SeqIn, setFault, hq, negotiateSuccessors]) fun ops _ => ?_).sat
    dsimp only
    split <;> simp [SeqIn, negotiateSuccessors]
  case h_8 hq =>
    rw [hq]
    exact (post_busWrite (by simp [SeqIn, negotiateSuccessors]) (by simp [SeqIn, negotiateSuccessors])).sat
  case h_9 hq =>
    rw [hq, negotiateSuccessors, ← hq]
    exact sat_softResetStep_seq fun _ => rfl
  case h_10 => exact sat_fault

/-- R28: a write succeeds or fails. -/
theorem WriteResult.fail_or_ok {reg : Byte} {w : List Byte} {leave : State → State} {s : State} {o : Out}
    (h : WriteResult (.write reg w) leave s o) :
    (icAnswer s (.write reg w) = .fail ∧ o = .next (failedWith 1#4 (afterBus s (.write reg w)))) ∨
      o = .next (leave (afterBus s (.write reg w))) := by
  cases ha : icAnswer s (.write reg w) with
  | fail => exact .inl ⟨rfl, h.1 ha⟩
  | ok bytes =>
    obtain rfl : bytes = [] := icAnswer_length ha
    exact .inr (h.2 ha)

/-- R91: the write of COMMIT succeeds and moves on, or fails and ends the command. -/
theorem commit_write_moves {s t : State} {req : BusReq} (hs : InProgress 7#4 .commit s)
    (h : exec .negotiate s = .next t) (htrace : t.trace = s.trace ++ [busEvent s req]) :
    t.seq = .renegotiate ∨ (t.seq = .failed ∧ icAnswer s req = .fail) := by
  obtain ⟨ha, hfail⟩ | hmove := ((commitAndRenegotiate s).1 hs).fail_or_ok
  · cases h.symm.trans hfail
    generalize BusReq.write _ _ = committed at ha htrace
    have hevent : busEvent s committed = busEvent s req := by simpa [failedWith] using htrace
    exact .inr ⟨rfl, (congrArg BusEvent.answer hevent).symm.trans ha⟩
  · cases h.symm.trans hmove
    exact .inl rfl

/-- Settles O38: the write is one NEGOTIATE may issue; the moves are the successors of each state. -/
theorem negotiateWriteSet : Obligations.NegotiateWriteSet := by
  refine ⟨fun s t dev reg bytes a hexec htrace => ?_, fun s t hf hb hc hexec => ?_⟩
  · obtain ⟨hb, hf, hevent, hissues⟩ := Issues.of_trace (sat_exec_commandStep .negotiate s t hexec) htrace
    have hwrite : NegotiateWrite s reg bytes := by simpa [MayIssue] using hissues.allowed
    refine hwrite.imp_right fun ⟨hq, hreg, hlen⟩ => ⟨hq, hreg, hlen, ?_⟩
    have hc : s.curCmd = 7#4 := curCmd_of_trace rfl hexec hb (by simp [htrace])
    have ha : a = icAnswer s (.write reg bytes) := congrArg BusEvent.answer hevent
    rw [ha]
    exact commit_write_moves ⟨legal_of_exec hexec, hf, hb, hc, hq⟩ hexec hissues.trace
  · have hs : InProgress 7#4 s.seq s := ⟨legal_of_exec hexec, hf, hb, hc, rfl⟩
    rw [hs.negotiate] at hexec
    have hnext : t.seq ∈ negotiateSuccessors s.seq := sat_negotiateStep_seq t hexec
    refine ⟨fun hcommit => ?_, fun hq => ?_⟩
    · rw [hcommit] at hnext
      cases hq : s.seq <;> simp [hq, negotiateSuccessors] at hnext ⊢
    · simpa [hq, negotiateSuccessors] using hnext

/-! ## The step by its input -/

/-- What the next input leaves in the queue when the outside world does nothing. -/
def Idles (s : State) (rest : List Input) : Prop := (s.inputs = [] ∧ rest = []) ∨ s.inputs = .run :: rest

/-- What one step is (R13, R25, R56, R57, R140, R152), by the next input and the block. -/
inductive Lands (s : State) : State → Prop
  | waits (rest : List Input) (hi : Idles s rest) : Lands s { s with inputs := rest }
  | blockSteps (rest : List Input) (i : Instr) (t : State) (hi : Idles s rest) (hb : s.busy = true)
      (hf : s.fault = false) (h : exec i { s with inputs := rest } = .next t) : Lands s t
  | busyWrite (rest : List Input) (hb : s.busy = true) : Lands s (setFault { s with inputs := rest })
  | command (v : U32) (rest : List Input) (i : Instr) (t : State) (hi : s.inputs = .hostWrite 0x00#8 v :: rest)
      (hb : s.busy = false) (h : exec i { s with inputs := rest } = .next t) : Lands s t
  | registerWrite (idx : Byte) (v : U32) (rest : List Input) (hb : s.busy = false) :
      Lands s (writeRegister idx v { s with inputs := rest })
  | read (idx : Byte) (rest : List Input) : Lands s (hostRead idx { s with inputs := rest })
  | reset (rest : List Input) (hi : s.inputs = .reset :: rest) : Lands s (resetBlock { s with inputs := rest })

theorem sat_blockStep_lands {s : State} {rest : List Input} (hi : Idles s rest) :
    Sat (Lands s) (blockStep { s with inputs := rest }) := by
  unfold blockStep
  split
  · exact sat_next.2 (.waits rest hi)
  · rename_i hf
    split
    · exact sat_next.2 (.waits rest hi)
    · rename_i hb
      split
      · exact fun t ht => .blockSteps rest _ t hi (by simpa using hb) (by simpa using hf) ht
      · exact sat_fault

theorem sat_hostWrite_lands {s : State} {idx : Byte} {v : U32} {rest : List Input}
    (hi : s.inputs = .hostWrite idx v :: rest) : Sat (Lands s) (hostWrite idx v { s with inputs := rest }) := by
  by_cases hb : s.busy = true
  · rw [hostWrite_busy idx v (by exact hb)]
    exact sat_next.2 (.busyWrite rest hb)
  · have hb : s.busy = false := by simpa using hb
    by_cases hidx : idx = 0x00#8
    · subst hidx
      rw [hostWrite_command (by exact hb) rfl]
      exact fun t ht => .command v rest _ t hi hb ht
    · rw [hostWrite_register v (by exact hb) hidx]
      exact sat_next.2 (.registerWrite idx v rest hb)

theorem lands_of_step {s t : State} (h : step s = .next t) : Lands s t := by
  have hl := legal_of_step h
  suffices hsat : Sat (Lands s) (step s) from hsat t h
  cases hi : s.inputs with
  | nil =>
    rw [step_noInput hl hi]
    exact sat_blockStep_lands (s := s) (rest := s.inputs) (.inl ⟨hi, hi⟩)
  | cons i rest =>
    rw [step_input hl hi]
    cases i with
    | run => exact sat_blockStep_lands (.inr hi)
    | hostWrite idx v => exact sat_hostWrite_lands hi
    | hostRead idx => exact sat_next.2 (.read idx rest)
    | reset => exact sat_next.2 (.reset rest hi)

/-! ## Rules of the whole machine -/

/-- R27, R88: a transaction a command may issue has one of the listed lengths; a capture has 1 to 7 objects. -/
theorem legalLength_of_mayIssue {i : Instr} {s : State} {req : BusReq} (h : Invariant s) (hb : s.busy = true)
    (hreq : MayIssue i s req) : legalLength req = true := by
  cases req with
  | read reg n =>
    rcases hreq with rfl | rfl | rfl | ⟨hq, c, hc, rfl⟩
    · rfl
    · rfl
    · rfl
    · obtain ⟨m, hm, h1, h7⟩ := h.capture hb hq
      cases hc.symm.trans hm
      rw [objectCount_eq_toNat h7]
      simp [legalLength]
      omega
  | write reg bytes =>
    have hlen : bytes.length = 1 ∨ bytes.length = 4 ∨ bytes.length = 8 := by
      simp only [MayIssue] at hreq
      split at hreq
      · rcases hreq with ⟨-, ⟨-, -, rfl⟩ | ⟨-, -, rfl⟩⟩ | ⟨-, -, h4⟩
        · exact .inl rfl
        · exact .inl rfl
        · exact .inr (.inl h4)
      · exact hreq.imp_right .inr
    simpa [legalLength, or_assoc] using hlen

/-- What a step leaves of the history, when it leaves it or adds a transaction to it. -/
theorem trace_of_step {s t : State} (h : step s = .next t) :
    t.trace = s.trace ∨
    ∃ (i : Instr) (rest : List Input) (req : BusReq), Idles s rest ∧ s.busy = true ∧ s.fault = false ∧
      Issues i { s with inputs := rest } req t := by
  cases lands_of_step h with
  | waits rest hi => exact .inl rfl
  | blockSteps rest i t hi hb hf hexec =>
    rcases sat_exec_commandStep i _ t hexec with hs | ⟨-, -, req, hs⟩
    · exact .inl hs.trace
    · exact .inr ⟨i, rest, req, hi, hb, hf, hs⟩
  | busyWrite rest hb => exact .inl rfl
  | command v rest i t hi hb hexec =>
    rcases sat_exec_commandStep i _ t hexec with hs | ⟨hbusy, -⟩
    · exact .inl hs.trace
    · cases hb.symm.trans hbusy
  | registerWrite idx v rest hb => exact .inl (by simp)
  | read idx rest => exact .inl rfl
  | reset rest hi => exact .inl rfl

/-- Settles O10: the one transaction a step may issue is recorded as `busEvent` records it. -/
theorem atMostOneTransactionPerStep : Obligations.AtMostOneTransactionPerStep := by
  intro s t hinv hstep
  refine (trace_of_step hstep).imp_right fun ⟨i, rest, req, _, hb, _, hissues⟩ => ?_
  have hlen := legalLength_of_mayIssue (hinv.withInputs rest) hb hissues.allowed
  refine ⟨_, hissues.trace, rfl, hlen, fun reg n bytes hreq hok => ?_⟩
  obtain rfl : req = .read reg n := hreq
  exact icAnswer_read_length hok

/-- Settles O60: each rule, by the input that lands. -/
theorem wholeMachineRules : Obligations.WholeMachineRules := by
  intro s t hstep
  have hl := legal_of_step hstep
  have exec_profile {i : Instr} {u : State} (h : exec i u = .next t) : t.profile = u.profile := by
    rcases sat_exec_commandStep i u t h with hs | ⟨-, -, req, hs⟩
    · exact hs.profile
    · exact hs.profile
  refine ⟨?_, fun hf ht => ?_, fun hne => ?_, fun ht hf => ?_⟩
  · cases lands_of_step hstep with
    | blockSteps rest i t hi hb hf hexec => exact exec_profile (u := { s with inputs := rest }) hexec
    | command v rest i t hi hb hexec => exact exec_profile (u := { s with inputs := rest }) hexec
    | registerWrite idx v rest hb => simp
    | _ => rfl
  · by_contra hreset
    have hfrozen := faultedBlockIsFrozen.2 s t hf (fun rest hi => hreset ⟨rest, hi⟩) hstep
    exact Bool.false_ne_true (ht.symm.trans hfrozen.1)
  · obtain ⟨i, rest, req, hi, hb, hf, -⟩ := (trace_of_step hstep).resolve_left hne
    exact ⟨hb, hf, hi.imp (fun hnil => hnil.1) fun hrun => ⟨rest, hrun⟩⟩
  · cases lands_of_step hstep with
    | blockSteps rest i t hi hb hf' hexec => exact .inl hb
    | busyWrite rest hb => exact .inl hb
    | command v rest i t hi hb hexec => exact .inr ⟨v, rest, hi⟩
    | registerWrite idx v rest hb => simp [hf] at ht
    | reset rest hi => cases ht
    | _ => cases hf.symm.trans ht

end Sys2Proof.Machine
end

section
/-!
PROOFS about the laws of the PDO codec (R62, R66, R67).
-/

namespace Sys2Proof.Machine

/-- Settles O25: the 32-bit power is the exact one, and the greatest product is 65535 * 65535. -/
theorem powerNeverOverflows : Obligations.PowerNeverOverflows := by
  intro c v
  have hcv : c.toNat * v.toNat ≤ 65535 * 65535 := Nat.mul_le_mul (by omega) (by omega)
  rw [powerMw_toNat, milliwatts]
  exact ⟨rfl, by omega⟩

/-- R45: the word of a current and a voltage in its two fields. -/
theorem packed_toNat (c v : Nat) : (packed c v).toNat = c / 10 % 1024 + v / 50 % 1024 * 1024 := by
  rw [packed, BitVec.toNat_ofNat]
  omega

/-- R67: the two fields of a word, packed again, are its low twenty bits. -/
theorem packed_fields (w : U32) : packed (mA w) (mV w) = w &&& 0x000FFFFF#32 := by
  apply BitVec.eq_of_toNat_eq
  have hmask : w.toNat &&& 0xFFFFF = w.toNat % 2 ^ 20 := Nat.and_two_pow_sub_one_eq_mod _ 20
  rw [packed_toNat, BitVec.toNat_and, show (0x000FFFFF#32).toNat = 0xFFFFF from rfl, hmask, mA, mV]
  omega

/-- R43: a legal profile keeps the type bits above the two fields. -/
theorem pdoTypeLsb_of_legal {p : DeviceProfile} (hl : p.legal = true) : 20 ≤ p.pdoTypeLsb := by
  have h := (illegalProfileRunsNothing.1 p).1 hl
  exact h.1

/-- Settles O26: both ways in natural numbers, where a value on the grid is a multiple of its unit that fits its
field. -/
theorem codecRoundTrip : Obligations.CodecRoundTrip := by
  refine ⟨fun p c v hl hc hc' hv hv' => ⟨?_, ?_, ?_⟩, fun w => ?_⟩
  · have hlow : (packed c.toNat v.toNat).toNat < 2 ^ p.pdoTypeLsb :=
      calc (packed c.toNat v.toNat).toNat
        _ < 2 ^ 20 := by rw [packed_toNat]; omega
        _ ≤ 2 ^ p.pdoTypeLsb := Nat.pow_le_pow_right (by decide) (pdoTypeLsb_of_legal hl)
    apply BitVec.eq_of_toNat_eq
    rw [pdoType_toNat, pdoEncode_eq_packed, typeCode, Nat.div_eq_of_lt hlow]
    rfl
  · apply BitVec.eq_of_toNat_eq
    rw [pdoCurrent_toNat, pdoEncode_eq_packed, mA, packed_toNat]
    omega
  · apply BitVec.eq_of_toNat_eq
    rw [pdoVoltage_toNat, pdoEncode_eq_packed, mV, packed_toNat]
    omega
  · rw [pdoEncode_eq_packed, pdoCurrent_toNat, pdoVoltage_toNat, packed_fields]

end Sys2Proof.Machine
end

section
/-!
PROOFS about the selection (R71 to R77): the capture as a list of words, the loop of R74 by the winner among the words
it has visited, PDO_SELECT (R76) and SELECT of NEGOTIATE (R89).
-/

namespace Sys2Proof.Machine

/-! ## The words of a capture -/

/-- R36: a word is made of its four bytes. -/
theorem le32_extract (w : U32) :
    le32 (w.extractLsb' 0 8) (w.extractLsb' 8 8) (w.extractLsb' 16 8) (w.extractLsb' 24 8) = w := by
  apply BitVec.eq_of_toNat_eq
  simp only [le32, toNat_append_eq_add, BitVec.extractLsb'_toNat, Nat.shiftRight_eq_div_pow]
  omega

/-- R35, R71: bytes that are those of `n` words are read as these words. -/
theorem wordsOf_eq {n : Nat} {bytes : List Byte} {ws : Nat → U32} (hlen : bytes.length = 4 * n)
    (hb : ∀ j < n, ∀ k < 4, bytes[4 * j + k]? = some ((ws j).extractLsb' (8 * k) 8)) :
    wordsOf bytes = (List.range n).map ws := by
  induction n generalizing bytes ws with
  | zero =>
    rw [List.eq_nil_of_length_eq_zero hlen]
    rfl
  | succ n ih =>
    match bytes, hlen with
    | b0 :: b1 :: b2 :: b3 :: rest, hlen =>
      have hfirst (k : Nat) (hk : k < 4) := hb 0 (by omega) k hk
      have h0 : b0 = (ws 0).extractLsb' 0 8 := by simpa using hfirst 0 (by decide)
      have h1 : b1 = (ws 0).extractLsb' 8 8 := by simpa using hfirst 1 (by decide)
      have h2 : b2 = (ws 0).extractLsb' 16 8 := by simpa using hfirst 2 (by decide)
      have h3 : b3 = (ws 0).extractLsb' 24 8 := by simpa using hfirst 3 (by decide)
      have hrest : wordsOf rest = (List.range n).map fun j => ws (j + 1) := by
        refine ih (by simp only [List.length_cons] at hlen; omega) fun j hj k hk => ?_
        have hnext := hb (j + 1) (by omega) k hk
        rw [show 4 * (j + 1) + k = 4 * j + k + 1 + 1 + 1 + 1 by omega] at hnext
        simpa using hnext
      rw [wordsOf, hrest, h0, h1, h2, h3, le32_extract, List.range_succ_eq_map, List.map_cons, List.map_map]
      rfl

theorem HasNegConfig.negConfig_eq {s : State} {cfg : NegConfig} (h : HasNegConfig s cfg) : negConfig s = some cfg := by
  obtain ⟨h1, h2, h3⟩ := h
  simp [negConfig, h1, h2, h3]

/-- R76: with every operand written, the selection runs over the words of the capture. -/
theorem selectOperands_eq {s : State} {c : Byte} {cfg : NegConfig} {ws : Nat → U32} (hc : s.capCount = some c)
    (hcfg : HasNegConfig s cfg) (hws : HoldsWords s.mem (c.toNat % 8) ws) :
    selectOperands s = some ((List.range (c.toNat % 8)).map ws, cfg) := by
  generalize hn : c.toNat % 8 = n at hws
  have hread : Memory.getBytes s.mem capBase (4 * n) =
      some ((List.range (4 * n)).map fun x => (ws (x / 4)).extractLsb' (8 * (x % 4)) 8) := by
    refine Memory.getBytes_eq_some.2 ⟨by simp, fun x hx => ?_⟩
    have hget := hws (x / 4) (by omega) (x % 4) (by omega)
    rw [show 0x20 + 4 * (x / 4) + x % 4 = capBase + x by rw [capBase]; omega] at hget
    simp [hget, hx]
  have hwords : wordsOf ((List.range (4 * n)).map fun x => (ws (x / 4)).extractLsb' (8 * (x % 4)) 8) =
      (List.range n).map ws := by
    refine wordsOf_eq (by simp) fun j hj k hk => ?_
    have hx : 4 * j + k < 4 * n := by omega
    have hdiv : (4 * j + k) / 4 = j := by omega
    have hmod : (4 * j + k) % 4 = k := by omega
    simp [hx, hdiv, hmod]
  simp [selectOperands, captureWords, hc, hcfg.negConfig_eq, objectCount_eq, hn, hread, hwords]

/-! ## The loop -/

theorem candidate_iff {p : DeviceProfile} {cfg : NegConfig} {w : U32} :
    candidate p cfg w = true ↔ IsCandidate p cfg w := by
  simp [candidate, IsCandidate, pdoIsFixed, ← BitVec.toNat_inj, BitVec.le_def, and_assoc]

theorem pdoPower_toNat (w : U32) : (pdoPower w).toNat = milliwatts (mA w) (mV w) := by simp [pdoPower]

theorem baseline_toNat (cfg : NegConfig) : (baseline cfg).toNat = milliwatts cfg.minI.toNat cfg.minV.toNat := by
  simp [baseline]

section Loop

variable {p : DeviceProfile} {cfg : NegConfig} {ws : Nat → U32} {n i : Nat}

/-- R74: a word that beats every earlier one wins among the words up to it. -/
theorem wins_succ_self (hc : IsCandidate p cfg (ws n))
    (hbase : milliwatts cfg.minI.toNat cfg.minV.toNat < milliwatts (mA (ws n)) (mV (ws n)))
    (hall : ∀ j < n, IsCandidate p cfg (ws j) →
      milliwatts (mA (ws j)) (mV (ws j)) < milliwatts (mA (ws n)) (mV (ws n))) :
    Wins p cfg (n + 1) ws n := by
  refine ⟨by omega, hc, hbase, fun j hj hcj => ?_, hall⟩
  rcases Nat.lt_succ_iff_lt_or_eq.1 hj with h | rfl
  · exact Nat.le_of_lt (hall j h hcj)
  · exact Nat.le_refl _

/-- R74: a word that does not beat the winner leaves it the winner. -/
theorem Wins.succ (h : Wins p cfg n ws i)
    (hn : IsCandidate p cfg (ws n) → milliwatts (mA (ws n)) (mV (ws n)) ≤ milliwatts (mA (ws i)) (mV (ws i))) :
    Wins p cfg (n + 1) ws i := by
  obtain ⟨hi, hc, hbase, hmax, hfirst⟩ := h
  refine ⟨by omega, hc, hbase, fun j hj hcj => ?_, hfirst⟩
  rcases Nat.lt_succ_iff_lt_or_eq.1 hj with h | rfl
  · exact hmax j h hcj
  · exact hn hcj

theorem NoneWins.succ (h : NoneWins p cfg n ws)
    (hn : IsCandidate p cfg (ws n) →
      milliwatts (mA (ws n)) (mV (ws n)) ≤ milliwatts cfg.minI.toNat cfg.minV.toNat) :
    NoneWins p cfg (n + 1) ws := by
  intro j hj hcj
  rcases Nat.lt_succ_iff_lt_or_eq.1 hj with h' | rfl
  · exact h j h' hcj
  · exact hn hcj

/-- R75: two winners beat each other unless they are one. -/
theorem Wins.unique {j : Nat} (hi : Wins p cfg n ws i) (hj : Wins p cfg n ws j) : i = j := by
  obtain ⟨hin, hci, -, hmaxi, hfirsti⟩ := hi
  obtain ⟨hjn, hcj, -, hmaxj, hfirstj⟩ := hj
  rcases Nat.lt_trichotomy i j with h | h | h
  · exact absurd (hmaxi j hjn hcj) (Nat.not_le.2 (hfirstj i h hci))
  · exact h
  · exact absurd (hmaxj i hin hci) (Nat.not_le.2 (hfirsti j h hcj))

theorem Wins.not_noneWins (h : Wins p cfg n ws i) : ¬NoneWins p cfg n ws := fun hnone =>
  Nat.not_le.2 h.2.2.1 (hnone i h.1 h.2.1)

/-- R74: the selector's registers after the first `n` words, from the index they started with. -/
def Selected (p : DeviceProfile) (cfg : NegConfig) (ws : Nat → U32) (idx : BitVec 3) (n : Nat) (sel : Selection) :
    Prop :=
  (sel.found = false ∧ sel.bestP = baseline cfg ∧ sel.bestIdx = idx ∧ NoneWins p cfg n ws) ∨
  (sel.found = true ∧ ∃ i, Wins p cfg n ws i ∧ sel.bestP = pdoPower (ws i) ∧ sel.bestIdx = BitVec.ofNat 3 i)

theorem Selected.selectOne {idx : BitVec 3} {sel : Selection} (h : Selected p cfg ws idx n sel) :
    Selected p cfg ws idx (n + 1) (selectOne p cfg n (ws n) sel) := by
  unfold Machine.selectOne
  split
  · rename_i hnew
    rw [Bool.and_eq_true, candidate_iff, decide_eq_true_eq, BitVec.lt_def, pdoPower_toNat] at hnew
    obtain ⟨hc, hlt⟩ := hnew
    refine .inr ⟨rfl, n, ?_, rfl, rfl⟩
    rcases h with ⟨-, hbest, -, hnone⟩ | ⟨-, i, hw, hbest, -⟩
    · rw [hbest, baseline_toNat] at hlt
      exact wins_succ_self hc hlt fun j hj hcj => Nat.lt_of_le_of_lt (hnone j hj hcj) hlt
    · rw [hbest, pdoPower_toNat] at hlt
      obtain ⟨-, -, hbase, hmax, -⟩ := hw
      exact wins_succ_self hc (by omega) fun j hj hcj => Nat.lt_of_le_of_lt (hmax j hj hcj) hlt
  · rename_i hold
    rw [Bool.and_eq_true, candidate_iff, decide_eq_true_eq, BitVec.lt_def, pdoPower_toNat, not_and, Nat.not_lt] at hold
    rcases h with ⟨hf, hbest, hidx, hnone⟩ | ⟨hf, i, hw, hbest, hidx⟩
    · rw [hbest, baseline_toNat] at hold
      exact .inl ⟨hf, hbest, hidx, hnone.succ hold⟩
    · rw [hbest, pdoPower_toNat] at hold
      exact .inr ⟨hf, i, hw.succ hold, hbest, hidx⟩

theorem Selected.selectFrom {idx : BitVec 3} {sel : Selection} (m : Nat) (h : Selected p cfg ws idx n sel) :
    Selected p cfg ws idx (n + m) (selectFrom p cfg n ((List.range' n m).map ws) sel) := by
  induction m generalizing n sel with
  | zero => exact h
  | succ m ih =>
    rw [List.range'_succ, List.map_cons, Machine.selectFrom, show n + (m + 1) = n + 1 + m by omega]
    exact ih h.selectOne

/-- R74: the whole loop. -/
theorem selected_selectFrom (sel : Selection) (hf : sel.found = false) (hbest : sel.bestP = baseline cfg) (n : Nat) :
    Selected p cfg ws sel.bestIdx n (selectFrom p cfg 0 ((List.range n).map ws) sel) := by
  have hstart : Selected p cfg ws sel.bestIdx 0 sel := .inl ⟨hf, hbest, rfl, fun j hj => absurd hj (Nat.not_lt_zero j)⟩
  have hloop := hstart.selectFrom n
  rwa [Nat.zero_add, ← List.range_eq_range'] at hloop

end Loop

/-! ## What follows the loop -/

section Steps

variable {s : State} {cfg : NegConfig} {ws : Nat → U32} {n : Nat}

theorem selected_pdoSelect :
    Selected s.profile cfg ws s.selBestIdx n (pdoSelect s ((List.range n).map ws) cfg) :=
  selected_selectFrom _ rfl rfl n

/-- R74, R89: the selection when word `i` wins. -/
theorem withSelection_wins {k : U32 → Selection → State → Out} {i : Nat}
    (hops : selectOperands s = some ((List.range n).map ws, cfg)) (hn : n ≤ 8) (hw : Wins s.profile cfg n ws i) :
    ∃ sel : Selection, sel.found = true ∧ sel.bestP = BitVec.ofNat 32 (milliwatts (mA (ws i)) (mV (ws i))) ∧
      sel.bestIdx = BitVec.ofNat 3 i ∧ withSelection k s = k (ws i) sel (keepSelection sel s) := by
  obtain ⟨hf, hbest, hidx, hnone⟩ | ⟨hf, j, hj, hbest, hidx⟩ :=
    selected_pdoSelect (s := s) (cfg := cfg) (ws := ws) (n := n)
  · exact absurd hnone hw.not_noneWins
  · obtain rfl := hw.unique hj
    obtain ⟨hin, -⟩ := hw
    have hword : selectedWord ((List.range n).map ws) (pdoSelect s ((List.range n).map ws) cfg) = ws i := by
      have hi : i % 8 = i := Nat.mod_eq_of_lt (by omega)
      simp [selectedWord, hidx, hi, hin]
    refine ⟨_, hf, ?_, hidx, ?_⟩
    · rw [hbest, pdoPower, powerMw_eq_ofNat, pdoCurrent_toNat, pdoVoltage_toNat]
    · rw [withSelection, withOperand_of hops]
      simp only [hf, hword, if_true]

/-- R74, R137: the selection when no word wins. -/
theorem withSelection_none {k : U32 → Selection → State → Out}
    (hops : selectOperands s = some ((List.range n).map ws, cfg)) (hnone : NoneWins s.profile cfg n ws) :
    ∃ i : BitVec 3, withSelection k s = .next (failedWith 7#4 { s with
      selFound := false
      selBestP := BitVec.ofNat 32 (milliwatts cfg.minI.toNat cfg.minV.toNat)
      selI := i }) := by
  obtain ⟨hf, hbest, hidx, -⟩ | ⟨-, j, hj, -⟩ := selected_pdoSelect (s := s) (cfg := cfg) (ws := ws) (n := n)
  · refine ⟨(pdoSelect s ((List.range n).map ws) cfg).i, ?_⟩
    rw [withSelection, withOperand_of hops]
    simp only [hf, Bool.false_eq_true, if_false]
    rw [keepSelection, hf, hbest, hidx, baseline, powerMw_eq_ofNat]
    rfl
  · exact absurd hnone hj.not_noneWins

end Steps

/-- Settles O28: the loop ends with the winner. -/
theorem selectSucceeds : Obligations.SelectSucceeds := by
  refine ⟨rfl, fun s c cfg ws i hs hc hcfg hws hw => ?_⟩
  obtain ⟨sel, hf, hbest, hidx, hstep⟩ := withSelection_wins (selectOperands_eq hc hcfg hws) (by omega) hw
  refine ⟨sel.i, ?_⟩
  rw [exec, execPdoSelect, hs.pureCommand_body, hstep, keepSelection, hf, hbest, hidx,
    setWidth_eq_ofNat (k := i) (by have hin := hw.1; simp; omega), endOk_eq_finished]

/-- Settles O29: the loop ends with no winner; that it ends with one or none says which of the two there is. -/
theorem selectFails : Obligations.SelectFails := by
  refine ⟨fun s c cfg ws hs hc hcfg hws hnone => ?_, fun p cfg n ws => ⟨?_, ?_⟩, fun p cfg n ws hempty j hj hcj => ?_⟩
  · rw [exec, execPdoSelect, hs.pureCommand_body]
    exact withSelection_none (selectOperands_eq hc hcfg hws) hnone
  · have hloop := selected_selectFrom (p := p) (cfg := cfg) (ws := ws) ⟨false, baseline cfg, 0#3, 0#3⟩ rfl rfl n
    exact hloop.imp (fun ⟨_, _, _, hnone⟩ => hnone) fun ⟨_, i, hw, _⟩ => ⟨i, hw⟩
  · rintro ⟨hnone, i, hw⟩
    exact hw.not_noneWins hnone
  · obtain ⟨-, -, hmin, hmax⟩ := hcj
    omega

/-- R89: the micro-step of SELECT in progress. -/
theorem InProgress.select {s : State} (h : InProgress 7#4 .select s) : exec .negotiate s = selectStep s := by
  rw [h.negotiate, negotiateStep, h.seq_eq]

/-- Settles O36: SELECT runs the same loop, and encodes the winner's current and voltage. -/
theorem selectState : Obligations.SelectState := by
  refine ⟨fun s hs hneg => ?_, fun s c cfg ws hs hc hcfg hws => ⟨fun hnone => ?_, fun i hw => ⟨packed_fields _, ?_⟩⟩⟩
  · rw [hs.select, selectStep, withSelection, selectOperands_eq_none (hneg.elim (.inr ∘ .inl) fun h => ?_)]
    · rfl
    · exact h.elim (.inr ∘ .inr ∘ .inl) (.inr ∘ .inr ∘ .inr ∘ .inl)
  · rw [hs.select]
    exact withSelection_none (selectOperands_eq hc hcfg hws) hnone
  · obtain ⟨sel, hf, hbest, hidx, hstep⟩ := withSelection_wins (selectOperands_eq hc hcfg hws) (by omega) hw
    refine ⟨sel.i, ?_⟩
    rw [hs.select, selectStep, hstep, keepSelection, hf, hbest, hidx, pdoEncode_eq_packed, pdoCurrent_toNat,
      pdoVoltage_toNat]
    rfl

end Sys2Proof.Machine
end

section
/-!
PROOFS about the NVM field patcher (R94 to R112): one patched field bit by bit, then the ten of `apply_config`, whose
intervals of bits do not meet under a legal map.
-/

namespace Sys2Proof.Machine

/-! ## Images bit by bit -/

/-- Two images whose bytes at `j` have the same bits have the same byte there. -/
theorem getElem?_eq_of_imageBit {r img : Image} {j : Nat} (hj : j < 40)
    (h : ∀ b < 8, imageBit r j b = imageBit img j b) : r[j]? = img[j]? := by
  have hbyte : r[j] = img[j] := BitVec.eq_of_getLsbD_eq fun b hb => by simpa [imageBit, hj] using h b hb
  simp [hj, hbyte]

theorem image_ext_imageBit {r img : Image} (h : ∀ j < 40, ∀ b < 8, imageBit r j b = imageBit img j b) : r = img :=
  image_eq_iff.2 fun j hj => getElem?_eq_of_imageBit hj (h j hj)

/-- R95: bit `b` of image byte `j` is a bit of the field. -/
def Covers (m : FieldMap) (f : Field) (j b : Nat) : Prop :=
  m.start f ≤ 8 * j + b ∧ 8 * j + b < m.start f + f.width

/-! ## One field -/

/-- R96: a byte field. -/
theorem imageBit_patch8 {img : Image} {i lsb w val j b : Nat} (hi : i < 40) (hb : b < 8) (hw : lsb + w ≤ 8) :
    imageBit (patch8 img i lsb w val) j b =
      if 8 * i + lsb ≤ 8 * j + b ∧ 8 * j + b < 8 * i + lsb + w then val.testBit (8 * j + b - (8 * i + lsb))
      else imageBit img j b := by
  rw [patch8, imageBit_set hi]
  by_cases hj : j = i
  · subst hj
    have hoffset : 8 * j + b - (8 * j + lsb) = b - lsb := by omega
    rw [if_pos rfl, patchByte_bit hb hw, hoffset]
    exact if_congr (by omega) rfl rfl
  · rw [if_neg hj, if_neg (by omega)]

/-- R10: the bits of a 16-bit window are those of its two bytes. -/
theorem getLsbD_le16 {lo hi : Byte} {k : Nat} :
    (le16 lo hi).getLsbD k = if k < 8 then lo.getLsbD k else hi.getLsbD (k - 8) := by
  rw [le16, BitVec.getLsbD_append]

/-- R97: a window field. -/
theorem imageBit_patch16 {img : Image} {i lsb w val j b : Nat} (hi : i + 1 < 40) (hb : b < 8) (hw : lsb + w ≤ 16) :
    imageBit (patch16 img i lsb w val) j b =
      if 8 * i + lsb ≤ 8 * j + b ∧ 8 * j + b < 8 * i + lsb + w then val.testBit (8 * j + b - (8 * i + lsb))
      else imageBit img j b := by
  simp only [patch16]
  rw [imageBit_set hi, imageBit_set (by omega)]
  by_cases hhigh : j = i + 1
  · subst hhigh
    have hoffset : 8 * (i + 1) + b - (8 * i + lsb) = 8 + b - lsb := by omega
    rw [if_pos rfl, hoffset, BitVec.getLsbD_extractLsb', patchWindow_bit (by omega) hw, getLsbD_le16,
      if_neg (by omega : ¬8 + b < 8), Nat.add_sub_cancel_left]
    simp only [hb, decide_true, Bool.true_and]
    exact if_congr (by omega) rfl rfl
  · rw [if_neg hhigh]
    by_cases hlow : j = i
    · subst hlow
      have hoffset : 8 * j + b - (8 * j + lsb) = b - lsb := by omega
      rw [if_pos rfl, hoffset, BitVec.getLsbD_extractLsb', Nat.zero_add, patchWindow_bit (by omega) hw, getLsbD_le16,
        if_pos hb]
      simp only [hb, decide_true, Bool.true_and]
      exact if_congr (by omega) rfl rfl
    · rw [if_neg hlow, if_neg (by omega)]

theorem index_lt_forty (f : Field) : f.index < 40 := by cases f <;> decide

theorem index_succ_lt_forty {f : Field} (h : f.isWindow = true) : f.index + 1 < 40 := by
  revert h
  cases f <;> decide

section Patch

variable {p : DeviceProfile} {c : NvmConfig}

/-- R100 to R109: a patched field has its value on its bits, and no other bit changes. -/
theorem imageBit_patchField {img : Image} {f : Field} {j b : Nat} (hf : p.fieldLsb.fits f = true) (hb : b < 8) :
    imageBit (patchField p c img f) j b =
      if 8 * f.index + p.fieldLsb.lsb f ≤ 8 * j + b ∧ 8 * j + b < 8 * f.index + p.fieldLsb.lsb f + f.width then
        (fieldValue c f).testBit (8 * j + b - (8 * f.index + p.fieldLsb.lsb f))
      else imageBit img j b := by
  rw [FieldMap.fits_iff] at hf
  unfold patchField
  split
  · rename_i hwin
    rw [if_pos hwin] at hf
    exact imageBit_patch16 (index_succ_lt_forty hwin) hb hf.2.2
  · rename_i hwin
    rw [if_neg hwin] at hf
    exact imageBit_patch8 (index_lt_forty f) hb hf

theorem imageBit_patchField_covered {img : Image} {f : Field} {j b : Nat} (hf : p.fieldLsb.fits f = true) (hb : b < 8)
    (hc : Covers p.fieldLsb f j b) :
    imageBit (patchField p c img f) j b = (fieldValue c f).testBit (8 * j + b - p.fieldLsb.start f) := by
  rw [imageBit_patchField hf hb]
  exact if_pos hc

theorem imageBit_patchField_other {img : Image} {f : Field} {j b : Nat} (hf : p.fieldLsb.fits f = true) (hb : b < 8)
    (hc : ¬Covers p.fieldLsb f j b) : imageBit (patchField p c img f) j b = imageBit img j b := by
  rw [imageBit_patchField hf hb]
  exact if_neg hc

/-! ## The ten fields -/

theorem fits_of_legal (hl : p.legal = true) (f : Field) : p.fieldLsb.fits f = true := by
  have hmap := ((illegalProfileRunsNothing.1 p).1 hl).2.2.2.2.2
  simp only [FieldMap.legal, Bool.and_eq_true, List.all_eq_true] at hmap
  exact hmap.1.1 f f.mem_fieldTable

/-- R94 (d): no bit is of two fields. -/
theorem Covers.unique {f g : Field} {j b : Nat} (hl : p.legal = true) (hf : Covers p.fieldLsb f j b)
    (hg : Covers p.fieldLsb g j b) : f = g := by
  have hmap := ((illegalProfileRunsNothing.1 p).1 hl).2.2.2.2.2
  simp only [FieldMap.legal, Bool.and_eq_true, FieldMap.disjoint_iff] at hmap
  by_contra hne
  have hdisjoint := hmap.2 f g hne
  unfold Covers at hf hg
  omega

theorem imageBit_foldl_other {img : Image} {fs : List Field} {j b : Nat} (hl : p.legal = true) (hb : b < 8)
    (h : ∀ f ∈ fs, ¬Covers p.fieldLsb f j b) : imageBit (fs.foldl (patchField p c) img) j b = imageBit img j b := by
  induction fs generalizing img with
  | nil => rfl
  | cons g gs ih =>
    rw [List.foldl_cons, ih fun f hf => h f (List.mem_cons_of_mem g hf)]
    exact imageBit_patchField_other (fits_of_legal hl g) hb (h g List.mem_cons_self)

theorem imageBit_foldl_covered {img : Image} {fs : List Field} {f : Field} {j b : Nat} (hl : p.legal = true)
    (hb : b < 8) (hf : f ∈ fs) (hc : Covers p.fieldLsb f j b) :
    imageBit (fs.foldl (patchField p c) img) j b = (fieldValue c f).testBit (8 * j + b - p.fieldLsb.start f) := by
  induction fs generalizing img with
  | nil => cases hf
  | cons g gs ih =>
    rw [List.foldl_cons]
    by_cases hmem : f ∈ gs
    · exact ih hmem
    · obtain rfl : f = g := (List.mem_cons.1 hf).resolve_right hmem
      rw [imageBit_foldl_other hl hb fun g hg hcg => hmem (hc.unique hl hcg ▸ hg)]
      exact imageBit_patchField_covered (fits_of_legal hl f) hb hc

/-- R99: a bit of a field is the bit of its value. -/
theorem imageBit_applyConfig_covered {img : Image} {f : Field} {j b : Nat} (hl : p.legal = true) (hb : b < 8)
    (hc : Covers p.fieldLsb f j b) :
    imageBit (applyConfig p c img) j b = (fieldValue c f).testBit (8 * j + b - p.fieldLsb.start f) :=
  imageBit_foldl_covered hl hb f.mem_fieldTable hc

/-- R111: any other bit stays. -/
theorem imageBit_applyConfig_other {img : Image} {j b : Nat} (hl : p.legal = true) (hb : b < 8)
    (hc : ∀ f, ¬Covers p.fieldLsb f j b) : imageBit (applyConfig p c img) j b = imageBit img j b :=
  imageBit_foldl_other hl hb fun f _ => hc f

/-- R95, R99: bit `k` of a field, in its container. -/
theorem imageBit_applyConfig_field {img : Image} (hl : p.legal = true) (f : Field) {k : Nat} (hk : k < f.width) :
    imageBit (applyConfig p c img) (f.index + (p.fieldLsb.lsb f + k) / 8) ((p.fieldLsb.lsb f + k) % 8) =
      (fieldValue c f).testBit k := by
  have hpos : 8 * (f.index + (p.fieldLsb.lsb f + k) / 8) + (p.fieldLsb.lsb f + k) % 8 = p.fieldLsb.start f + k := by
    unfold FieldMap.start
    omega
  have hc : Covers p.fieldLsb f (f.index + (p.fieldLsb.lsb f + k) / 8) ((p.fieldLsb.lsb f + k) % 8) := by
    unfold Covers
    omega
  rw [imageBit_applyConfig_covered hl (Nat.mod_lt _ (by decide)) hc, hpos, Nat.add_sub_cancel_left]

/-- R95, R99: bit `k` of a field whose container is one byte. -/
theorem imageBit_applyConfig_byteField {img : Image} (hl : p.legal = true) (f : Field) (hf : f.isWindow = false)
    {k : Nat} (hk : k < f.width) :
    imageBit (applyConfig p c img) f.index (p.fieldLsb.lsb f + k) = (fieldValue c f).testBit k := by
  have hfits : p.fieldLsb.lsb f + f.width ≤ 8 := by simpa [hf] using FieldMap.fits_iff.1 (fits_of_legal hl f)
  have hbit := imageBit_applyConfig_field (c := c) (img := img) hl f hk
  rwa [Nat.div_eq_of_lt (by omega), Nat.mod_eq_of_lt (by omega)] at hbit

/-! ## The statements -/

theorem gpioCfg_of_legal (hl : p.legal = true) : p.fieldLsb.gpioCfg = 4 := by
  have hmap := ((illegalProfileRunsNothing.1 p).1 hl).2.2.2.2.2
  simp only [FieldMap.legal, Bool.and_eq_true, beq_iff_eq] at hmap
  exact hmap.1.2

end Patch

/-- Settles O41: each field's bits, by the byte or the window it lies in. -/
theorem patchWritesFieldValues : Obligations.PatchWritesFieldValues := by
  rintro p c img _ _ hl - rfl rfl
  have byteField (f : Field) (hf : f.isWindow = false) (k : Nat) (hk : k < f.width) :=
    imageBit_applyConfig_byteField (c := c) (img := img) hl f hf hk
  have window (f : Field) (k : Nat) (hk : k < f.width) := imageBit_applyConfig_field (c := c) (img := img) hl f hk
  refine ⟨byteField .pdo1Current rfl, byteField .pdo2Current rfl, byteField .pdo3Current rfl,
    window .flexFallbackCurrent, window .pdo2Voltage, window .pdo3Voltage, byteField .numValidPdos rfl, ?_, ?_,
    fun k hk => ?_⟩
  · refine (byteField .useSrcCurrent rfl 0 (by decide)).trans ?_
    cases h : c.useSrc <;> simp [fieldValue, h]
  · refine (byteField .onlyAbove5V rfl 0 (by decide)).trans ?_
    cases h : c.onlyAbove5V <;> simp [fieldValue, h]
  · have hbit := byteField .gpioCfg rfl k hk
    rwa [FieldMap.lsb, gpioCfg_of_legal hl] at hbit

theorem exists_field_iff {P : Field → Prop} :
    (∃ f, P f) ↔ P .pdo1Current ∨ P .pdo2Current ∨ P .pdo3Current ∨ P .flexFallbackCurrent ∨ P .pdo2Voltage ∨
      P .pdo3Voltage ∨ P .numValidPdos ∨ P .useSrcCurrent ∨ P .onlyAbove5V ∨ P .gpioCfg := by
  rw [← not_iff_not]
  simp only [not_exists, not_or, Field.forall_iff]

/-- R95: the bits of a window field, counted from its first byte. -/
theorem exists_window_bit {j b i lsb w : Nat} (hb : b < 8) :
    (∃ k, lsb ≤ k ∧ k < lsb + w ∧ j = i + k / 8 ∧ b = k % 8) ↔
      8 * i + lsb ≤ 8 * j + b ∧ 8 * j + b < 8 * i + lsb + w := by
  constructor
  · rintro ⟨k, h1, h2, rfl, rfl⟩
    omega
  · intro h
    exact ⟨8 * j + b - 8 * i, by omega, by omega, by omega, by omega⟩

/-- R95: the ten fields' bits, written out. -/
theorem inFieldBits_iff {p : DeviceProfile} {j b : Nat} (hl : p.legal = true) (hb : b < 8) :
    InFieldBits p.fieldLsb j b ↔ ∃ f, Covers p.fieldLsb f j b := by
  have hmap := ((illegalProfileRunsNothing.1 p).1 hl).2.2.2.2.2
  obtain ⟨hbytes, -, -, -, hgpio, -⟩ := FieldMap.legal_iff.1 hmap
  simp only [InFieldBits, exists_field_iff, Covers, FieldMap.start, Field.index, Field.sector, Field.byteInSector,
    FieldMap.lsb, Field.width, hgpio]
  refine or_congr ?_ (or_congr ?_ (or_congr ?_ (or_congr (exists_window_bit hb) (or_congr (exists_window_bit hb)
    (or_congr (exists_window_bit hb) (or_congr ?_ (or_congr ?_ (or_congr ?_ ?_))))))))
  all_goals omega

/-- R111 (b): the bytes a field's bits lie in. -/
theorem mem_of_covers {p : DeviceProfile} {f : Field} {j b : Nat} (hl : p.legal = true) (hb : b < 8)
    (hc : Covers p.fieldLsb f j b) : j ∈ [8, 26, 28, 29, 32, 33, 34, 35, 36, 38] := by
  have hin := FieldMap.interval_of_fits (fits_of_legal hl f)
  have hrange : f.index ≤ j ∧ j < f.index + f.bytes := by
    unfold Covers at hc
    omega
  obtain ⟨hlo, hhi⟩ := hrange
  cases f <;> simp [Field.index, Field.sector, Field.byteInSector, Field.bytes, Field.isWindow] at hlo hhi ⊢ <;> omega

/-- Settles O42: the bits outside the fields stay, so the bytes without a field's bit do. -/
theorem patchIsolation : Obligations.PatchIsolation := by
  intro p c img hl
  have hbyte (j : Nat) (hj : j < 40) (hout : j ∉ [8, 26, 28, 29, 32, 33, 34, 35, 36, 38]) :
      (applyConfig p c img)[j]? = img[j]? :=
    getElem?_eq_of_imageBit hj fun b hb =>
      imageBit_applyConfig_other hl hb fun f hc => hout (mem_of_covers hl hb hc)
  refine ⟨fun j _ b hb hout => ?_, hbyte, fun j hj => ?_⟩
  · rw [inFieldBits_iff hl hb, not_exists] at hout
    exact imageBit_applyConfig_other hl hb hout
  · simp only [List.mem_cons, List.not_mem_nil, or_false] at hj
    refine hbyte j (by omega) ?_
    simp only [List.mem_cons, List.not_mem_nil, or_false]
    omega

/-- Settles O43: a field's bits depend on the configuration alone, and every other bit on the image alone. -/
theorem patchIsIdempotentAndDeterministic : Obligations.PatchIsIdempotentAndDeterministic := by
  intro p c img img' hl
  refine ⟨image_ext_imageBit fun j _ b hb => ?_, fun hagree => image_ext_imageBit fun j hj b hb => ?_⟩
  · by_cases h : ∃ f, Covers p.fieldLsb f j b
    · obtain ⟨f, hf⟩ := h
      rw [imageBit_applyConfig_covered hl hb hf, imageBit_applyConfig_covered hl hb hf]
    · exact imageBit_applyConfig_other hl hb (not_exists.1 h)
  · by_cases h : ∃ f, Covers p.fieldLsb f j b
    · obtain ⟨f, hf⟩ := h
      rw [imageBit_applyConfig_covered hl hb hf, imageBit_applyConfig_covered hl hb hf]
    · rw [imageBit_applyConfig_other hl hb (not_exists.1 h), imageBit_applyConfig_other hl hb (not_exists.1 h)]
      exact hagree j hj b hb (mt (inFieldBits_iff hl hb).1 h)

/-! ## NVM_PATCH, and its state in NVM_FLASH -/

/-- R21: what an image buffer reads as once the image is stored. -/
theorem get_storeImage (m : Memory) (base : Nat) (img : Image) (a : Nat) :
    Memory.get (storeImage m base img) a =
      if base ≤ a ∧ a < base + 40 then img[a - base]? else Memory.get m a := by
  rw [storeImage, Memory.get_setBytes, img.length_toList, Vector.getElem?_toList]

/-- Settles O44: with both operands written, the validation chooses the end. -/
theorem nvmPatchResult : Obligations.NvmPatchResult := by
  refine ⟨rfl, fun s c img hs hc himg => ?_⟩
  have hops : patchOperands s = some (c, img) := by
    have hbuf : bufferImage s.mem scratchBase = some img := HoldsImage.bufferImage_eq himg
    simp [patchOperands, hc.nvmConfig_eq, hbuf]
  have hstep : exec .nvmPatch s = .next (if c.valid = true then
      finished { s with mem := storeImage s.mem scratchBase (applyConfig s.profile c img) } else failedWith 9#4 s) := by
    rw [exec, execNvmPatch, hs.pureCommand_body, withOperand_of hops]
    split <;> rfl
  rw [hstep]
  refine ⟨fun hr => ?_, fun hr => ⟨_, ?_, get_storeImage s.mem scratchBase _⟩⟩
  · rw [if_neg (mt NvmConfig.valid_iff.1 hr)]
  · rw [if_pos (NvmConfig.valid_iff.2 hr)]

/-- R127: with the configuration written and an image read, the patch state copies and patches it. -/
theorem flashPatchStep_of {s : State} {c : NvmConfig} {img : Image} (hc : HasNvmConfig s c)
    (himg : HoldsImage s.mem imgBase img) :
    flashPatchStep s = .next (movedTo .nvmErase 0
      { s with mem := storeImage s.mem scratchBase (applyConfig s.profile c img) }) := by
  rw [flashPatchStep, withOperand_of hc.nvmConfig_eq, withOperand_of himg.bufferImage_eq]
  rfl

/-- Settles O49: the step stores the patched image in `NVM_SCRATCH`. -/
theorem flashPatchState : Obligations.FlashPatchState := by
  intro s c img hs hc himg
  have hstep : exec .nvmFlash s = flashPatchStep s := by rw [hs.nvmFlash, flashStep, hs.seq_eq]
  exact ⟨_, hstep.trans (flashPatchStep_of hc himg), get_storeImage s.mem scratchBase _⟩

end Sys2Proof.Machine
end

section
/-!
PROOFS about the micro-steps of the NVM states one at a time (R33, R78, R115 to R122, R157): which primitive stands at
which micro-step, the acknowledge polls, the data read of `ReadSector`, and `Exit`.
-/

namespace Sys2Proof.Machine

/-! ## The lists of primitives, by sequencer state -/

/-- R120 to R128: the primitives of an NVM state. -/
def nvmOps (p : DeviceProfile) : SeqState → List NvmOp
  | .nvmReadImage => readImageOps p imgBase
  | .nvmErase => enterWriteMode p
  | .nvmProgram => programOps p
  | .nvmExit => exitOps p
  | .nvmVerifyRead => readImageOps p verifyBase
  | _ => []

/-- R123, R126: the commands that run a list of primitives, and where. -/
def RunsList (opc : BitVec 4) (i : Instr) (st : SeqState) : Prop :=
  (opc = 8#4 ∧ i = .nvmRead ∧ st = .nvmReadImage) ∨
  (opc = 10#4 ∧ i = .nvmFlash ∧
    (st = .nvmReadImage ∨ st = .nvmErase ∨ st = .nvmProgram ∨ st = .nvmExit ∨ st = .nvmVerifyRead))

theorem nvmOps_length {opc : BitVec 4} {i : Instr} {st : SeqState} (h : RunsList opc i st) (p : DeviceProfile) :
    (nvmOps p st).length = microSteps st := by
  rcases h with ⟨-, -, rfl⟩ | ⟨-, -, rfl | rfl | rfl | rfl | rfl⟩ <;> rfl

/-- R123, R126: what follows the last primitive of a state. -/
def nvmLeave (opc : BitVec 4) : SeqState → State → State
  | .nvmErase => goto .nvmProgram
  | .nvmProgram => goto .nvmExit
  | .nvmExit => goto .nvmVerifyRead
  | .nvmVerifyRead => goto .nvmCompare
  | _ => if opc = 8#4 then endOk else goto .nvmPatch

theorem InProgress.nvmRead {s : State} (h : InProgress 8#4 .nvmReadImage s) :
    exec .nvmRead s = nvmListStep (readImageOps s.profile imgBase) endOk s := by
  obtain ⟨hl, hf, hb, hc, hq⟩ := h
  rw [exec, execNvmRead, underCommand_body hl hf hb hc, hq]

/-- The move after the primitive at micro-step `k`. -/
def nvmMove (opc : BitVec 4) (st : SeqState) (k : Nat) : State → State :=
  if k + 1 < microSteps st then advance else nvmLeave opc st

section RunsList

variable {opc : BitVec 4} {i : Instr} {st : SeqState} {s : State}

/-- R19: a micro-step of a state that runs a list is that of the primitive at its place. -/
theorem RunsList.exec_eq (h : RunsList opc i st) (hs : InProgress opc st s) {op : NvmOp}
    (hop : (nvmOps s.profile st)[s.mstep.toNat]? = some op) :
    exec i s = nvmOpStep op (nvmMove opc st s.mstep.toNat) s := by
  have hlist : exec i s = nvmListStep (nvmOps s.profile st) (nvmLeave opc st) s := by
    rcases h with ⟨rfl, rfl, rfl⟩ | ⟨rfl, rfl, hst⟩
    · exact hs.nvmRead
    · rw [hs.nvmFlash, flashStep, hs.seq_eq]
      rcases hst with rfl | rfl | rfl | rfl | rfl <;> rfl
  rw [hlist, nvmListStep_at hop, nvmOps_length h, nvmMove]

theorem nvmMove_of_lt {t : State} {k : Nat} (hk : k + 1 < microSteps st) (hq : t.seq = st) (hm : t.mstep.toNat = k) :
    nvmMove opc st k t = movedTo st (k + 1) t := by
  rw [nvmMove, if_pos hk, ← hq]
  exact advance_eq_movedTo (by rw [← hm, ← BitVec.ofNat_add_ofNat, BitVec.ofNat_toNat, BitVec.setWidth_eq])

/-- R127 to R129: the move, as the statements write it down. -/
theorem nvmMove_eq_nvmNext {t : State} {k : Nat} (h : RunsList opc i st) (hq : t.seq = st) (hm : t.mstep.toNat = k)
    (hc : t.curCmd = opc) : nvmMove opc st k t = nvmNext st k t := by
  unfold nvmNext
  split
  case isTrue hk => exact nvmMove_of_lt hk hq hm
  case isFalse hk =>
    rw [nvmMove, if_neg hk]
    rcases h with ⟨rfl, -, rfl⟩ | ⟨rfl, -, hst⟩
    · simp [nvmLeave, hc, endOk_eq_finished]
    · rcases hst with rfl | rfl | rfl | rfl | rfl <;> simp [nvmLeave, hc, goto, movedTo]

end RunsList

/-! ## The acknowledge polls -/

theorem PollResult.congr {req : BusReq} {satisfied : Byte → Prop} {budget : Option Nat} {code : BitVec 4}
    {leave leave' : State → State} {s : State} {o : Out} (h : PollResult req satisfied budget code leave s o)
    (hleave : leave (afterBus s req) = leave' (afterBus s req)) : PollResult req satisfied budget code leave' s o := by
  unfold PollResult at h ⊢
  rwa [← hleave]

theorem WriteResult.congr {req : BusReq} {leave leave' : State → State} {s : State} {o : Out}
    (h : WriteResult req leave s o) (hleave : leave (afterBus s req) = leave' (afterBus s req)) :
    WriteResult req leave' s o := by
  unfold WriteResult at h ⊢
  rwa [← hleave]

/-- R118: an acknowledge poll is a primitive of its state's list. -/
theorem getElem?_of_ackPollAt (p : DeviceProfile) {st : SeqState} {k : Nat} (h : AckPollAt st k) :
    (nvmOps p st)[k]? = some .ackPoll := by
  rcases h with ⟨⟨n, hn, rfl⟩, rfl | rfl⟩ | ⟨⟨n, hn, rfl⟩, rfl⟩ | ⟨⟨n, hn, rfl | rfl⟩, rfl⟩ <;> interval_cases n <;> rfl

/-- R118: the start of each acknowledge poll stands before it. -/
theorem getElem?_before_ackPollAt (p : DeviceProfile) {st : SeqState} {k : Nat} (h : AckPollAt st (k + 1)) :
    (nvmOps p st)[k]? = some .ackStart ∧ k + 1 < microSteps st := by
  rcases h with ⟨⟨n, hn, hk⟩, rfl | rfl⟩ | ⟨⟨n, hn, hk⟩, rfl⟩ | ⟨⟨n, hn, hk | hk⟩, rfl⟩ <;> interval_cases n <;>
    obtain rfl := Nat.succ.inj hk <;> exact ⟨rfl, by decide⟩

theorem runsList_of_ackPollAt {opc : BitVec 4} {i : Instr} {st : SeqState} {k : Nat}
    (h : (opc = 8#4 ∧ i = .nvmRead ∧ st = .nvmReadImage) ∨ (opc = 10#4 ∧ i = .nvmFlash)) (hk : AckPollAt st k) :
    RunsList opc i st := by
  refine h.imp_right fun ⟨hopc, hi⟩ => ⟨hopc, hi, ?_⟩
  rcases hk with ⟨-, h | h⟩ | ⟨-, h⟩ | ⟨-, h⟩ <;> simp [h]

/-- Settles O45: the start of a poll and its read, at their places in the lists. -/
theorem requestPollWaitsForClear : Obligations.RequestPollWaitsForClear := by
  intro s opc i st hcmd hs
  have hseq := hs.seq_eq
  refine ⟨fun hk => ?_, fun hk => ?_⟩
  · obtain ⟨hop, hlt⟩ := getElem?_before_ackPollAt s.profile hk
    rw [(runsList_of_ackPollAt hcmd hk).exec_eq hs hop, nvmOpStep, nvmMove, if_pos hlt]
    refine pollEntry_pollStart ?_
    rw [← BitVec.ofNat_add_ofNat, BitVec.ofNat_toNat, BitVec.setWidth_eq]
  · have hruns := runsList_of_ackPollAt hcmd hk
    rw [hruns.exec_eq hs (getElem?_of_ackPollAt s.profile hk), nvmOpStep]
    refine PollResult.congr (pollResult_pollRead (by simp [ackDone])) ?_
    exact nvmMove_eq_nvmNext hruns hseq rfl hs.curCmd_eq

/-! ## The data read of `ReadSector`, and `Exit` -/

/-- R121: where the data reads stand in `ReadImage`. -/
theorem readImageOps_at_readSector (p : DeviceProfile) (base : Nat) {n : Nat} (hn : n < 5) :
    (readImageOps p base)[7 * n + 8]? = some (.readSector base) := by
  interval_cases n <;> rfl

/-- Settles O46: the eight bytes are stored at the sector `SECT` holds. -/
theorem readSectorStoresItsSector : Obligations.ReadSectorStoresItsSector := by
  rintro s opc i st base n _ hcmd hs hn hm hsect rfl
  have hruns : RunsList opc i st := by
    rcases hcmd with ⟨h1, h2, h3, -⟩ | ⟨h1, h2, h3, -⟩ | ⟨h1, h2, h3, -⟩ <;> simp [RunsList, h1, h2, h3]
  have hop : (nvmOps s.profile st)[s.mstep.toNat]? = some (.readSector base) := by
    rw [hm]
    rcases hcmd with ⟨-, -, rfl, rfl⟩ | ⟨-, -, rfl, rfl⟩ | ⟨-, -, rfl, rfl⟩ <;> exact readImageOps_at_readSector _ _ hn
  have hsteps : 7 * n + 8 + 1 < microSteps st := by
    have h41 : microSteps st = 41 := by rcases hcmd with ⟨-, -, rfl, -⟩ | ⟨-, -, rfl, -⟩ | ⟨-, -, rfl, -⟩ <;> rfl
    omega
  rw [hruns.exec_eq hs hop, nvmOpStep, if_neg (by omega)]
  refine ⟨busRead_fail, fun bytes hb => ⟨Memory.setBytes s.mem (base + 8 * n) bytes, ?_, fun a => ?_⟩⟩
  · rw [busRead_ok hb, hm,
      nvmMove_of_lt (t := storeSect base bytes (afterBus s (.read s.profile.regNvmRwbuf 8))) hsteps hs.seq_eq hm]
    simp [storeSect, movedTo, hsect]
  · rw [Memory.get_setBytes, icAnswer_read_length hb]

/-- R119: where `Exit` begins in the lists. -/
theorem nvmOps_at_exit (p : DeviceProfile) {st : SeqState} {first : Nat}
    (h : (st = .nvmReadImage ∨ st = .nvmVerifyRead) ∧ first = 38 ∨ st = .nvmExit ∧ first = 0) :
    (nvmOps p st)[first]? = some (.write p.regNvmCtrl0 [0x00#8]) ∧
    (nvmOps p st)[first + 1]? = some (.write p.regNvmCtrl1 [0x00#8]) ∧
    (nvmOps p st)[first + 2]? = some (.write p.regNvmPassword [0x00#8]) ∧ microSteps st = first + 3 := by
  rcases h with ⟨rfl | rfl, rfl⟩ | ⟨rfl, rfl⟩ <;> exact ⟨rfl, rfl, rfl, rfl⟩

/-- Settles O48: the three writes stand at the end of `ReadImage`, and are the list of NVM_EXIT. -/
theorem exitSequence : Obligations.ExitSequence := by
  intro s opc i st first hcmd hs
  have hruns : RunsList opc i st := by
    rcases hcmd with ⟨rfl, rfl, rfl, -⟩ | ⟨rfl, rfl, rfl | rfl, -⟩ | ⟨rfl, rfl, rfl, -⟩ <;> simp [RunsList]
  obtain ⟨h0, h1, h2, hn⟩ := nvmOps_at_exit s.profile (st := st) (first := first) (by tauto)
  refine ⟨fun hm => ?_, fun hm => ?_, fun hm => ?_⟩
  · rw [hruns.exec_eq hs (hm ▸ h0), nvmOpStep, hm]
    exact (writeResult_busWrite rfl).congr (nvmMove_of_lt (by omega) hs.seq_eq hm)
  · rw [hruns.exec_eq hs (hm ▸ h1), nvmOpStep, hm]
    exact (writeResult_busWrite rfl).congr (nvmMove_of_lt (by omega) hs.seq_eq hm)
  · rw [hruns.exec_eq hs (hm ▸ h2), nvmOpStep, hm]
    refine (writeResult_busWrite rfl).congr ?_
    rw [nvmMove, if_neg (by omega)]
    rcases hcmd with ⟨rfl, rfl, rfl, -⟩ | ⟨rfl, rfl, rfl | rfl, -⟩ | ⟨rfl, rfl, rfl, -⟩ <;> rfl

end Sys2Proof.Machine
end

section
/-!
PROOFS about polls without a bound (R78, R147): a read that does not satisfy the poll comes back to the same state,
so any number of them does.
-/

namespace Sys2Proof.Machine

/-! ## The same state with another history and another script -/

/-- The state with this bus history and this script of the oracle. -/
def withBus (history : List BusEvent) (script : List IcAnswer) (s : State) : State :=
  { s with trace := history, icScript := script }

/-- R27: a transaction under an oracle only moves the history and the script on. -/
theorem afterBus_withBus {s : State} {history : List BusEvent} {a : IcAnswer} {rest : List IcAnswer} {req : BusReq}
    (hic : s.ic = .oracle) : ∃ e : BusEvent, e.req = req ∧
      afterBus (withBus history (a :: rest) s) req = withBus (history ++ [e]) rest s := by
  refine ⟨busEvent (withBus history (a :: rest) s) req, rfl, ?_⟩
  simp [afterBus, withBus, icAfter, scriptAfter, hic]

theorem movedTo_self {st : SeqState} {k : Nat} {s : State} (hq : s.seq = st) (hm : s.mstep = BitVec.ofNat 8 k) :
    movedTo st k s = s := by
  rw [movedTo, ← hq, ← hm]

section Repeats

variable {i : Instr} {s : State} {m : Nat} {req : BusReq} {idle : Byte → Prop}

/-- R147: when `m` steps at an idle byte come back to the same state but for the transaction, any number of idle bytes
does so. -/
theorem execN_repeats (hic : s.ic = .oracle)
    (hround : ∀ history b script, idle b → execN i m (withBus history (.ok [b] :: script) s) =
      .next (afterBus (withBus history (.ok [b] :: script) s) req))
    (bytes : List Byte) (rest : List IcAnswer) (history : List BusEvent) (hidle : ∀ b ∈ bytes, idle b) :
    ∃ history' : List BusEvent,
      execN i (m * bytes.length) (withBus history (bytes.map (fun b => .ok [b]) ++ rest) s) =
        .next (withBus history' rest s) ∧
      requests history' = requests history ++ List.replicate bytes.length req := by
  induction bytes generalizing history with
  | nil => exact ⟨history, rfl, by simp⟩
  | cons b bytes ih =>
    obtain ⟨hb, hbytes⟩ := List.forall_mem_cons.mp hidle
    obtain ⟨e, he, hbus⟩ := afterBus_withBus (history := history) (a := .ok [b])
      (rest := bytes.map (fun b => .ok [b]) ++ rest) (req := req) hic
    obtain ⟨history', hrun, hreq⟩ := ih (history ++ [e]) hbytes
    refine ⟨history', ?_, ?_⟩
    · rw [List.length_cons, Nat.mul_succ, Nat.add_comm]
      exact execN_trans ((hround history b _ hb).trans (congrArg _ hbus)) hrun
    · rw [hreq, requests, List.map_append, List.map_singleton, he, List.append_assoc, List.length_cons,
        List.replicate_succ]
      rfl

/-- R78 P1, R147: an iteration of a poll without a bound, on a byte that does not satisfy it. -/
theorem execN_pollResult_unbounded {reg : Byte} {satisfied : Byte → Prop} {budget : Option Nat} {code : BitVec 4}
    {leave : State → State} {history : List BusEvent} {b : Byte} {script : List IcAnswer} (hic : s.ic = .oracle)
    (hpoll : PollResult (.read reg 1) satisfied budget code leave (withBus history (.ok [b] :: script) s)
      (exec i (withBus history (.ok [b] :: script) s)))
    (hb : ¬satisfied b) (hfree : s.clkPresent = false ∨ budget = none) :
    execN i 1 (withBus history (.ok [b] :: script) s) =
      .next (afterBus (withBus history (.ok [b] :: script) s) (.read reg 1)) :=
  execN_one ((hpoll.2 b (icAnswer_scripted_read hic rfl rfl)).2.1 hb hfree)

/-- R87, R147: without a clock the flag read and the time check come back to the flag read. -/
theorem execN_waitCaps_idle {history : List BusEvent} {b : Byte} {script : List IcAnswer} (hic : s.ic = .oracle)
    (hs : InProgress 7#4 .waitCaps s) (hm : s.mstep = 1#8) (hclk : s.clkPresent = false)
    (hb : b &&& s.profile.msgReceivedMask = 0#8) :
    execN .negotiate 2 (withBus history (.ok [b] :: script) s) =
      .next (afterBus (withBus history (.ok [b] :: script) s) (.read s.profile.regPrtStatus 1)) := by
  have hflag : exec .negotiate (withBus history (.ok [b] :: script) s) = .next (movedTo .waitCaps 4
      (afterBus (withBus history (.ok [b] :: script) s) (.read s.profile.regPrtStatus 1))) :=
    (((waitCaps (withBus history (.ok [b] :: script) s) hs).2.1 hm _ rfl).2 b (icAnswer_scripted_read hic rfl rfl)).1 hb
  have htime := ((waitCaps (movedTo .waitCaps 4
    (afterBus (withBus history (.ok [b] :: script) s) (.read s.profile.regPrtStatus 1)))
    ⟨hs.1, hs.2.1, hs.2.2.1, hs.curCmd_eq, rfl⟩).2.2.2.2 rfl).1 hclk
  rw [execN_trans (execN_one hflag) (execN_one htime)]
  exact congrArg _ (movedTo_self (k := 1)
    (s := afterBus (withBus history (.ok [b] :: script) s) (.read s.profile.regPrtStatus 1)) hs.seq_eq hm)

end Repeats

/-- Settles O40: an iteration of each poll on an idle byte, repeated. -/
theorem pollsHangWithoutBound : Obligations.PollsHangWithoutBound := by
  refine ⟨?_, ?_⟩
  · rintro k s bytes rest req opc i st hs hic hscript rfl hcase
    have hself : s = withBus s.trace (bytes.map (fun b => .ok [b]) ++ rest) s := by rw [withBus, ← hscript]
    have hrun : ∃ history' : List BusEvent,
        execN i (1 * bytes.length) (withBus s.trace (bytes.map (fun b => .ok [b]) ++ rest) s) =
          .next (withBus history' rest s) ∧
        requests history' = requests s.trace ++ List.replicate bytes.length req := by
      rcases hcase with ⟨rfl, rfl, rfl, hm, hclk, rfl, hidle⟩ | ⟨rfl, rfl, rfl, hm, hclk, rfl, hidle⟩ |
        ⟨hcmd, hpoll, hfree, rfl, hidle⟩
      · refine execN_repeats hic (fun history b script hb => ?_) bytes rest s.trace hidle
        exact execN_pollResult_unbounded hic
          ((waitAttach (withBus history (.ok [b] :: script) s) hs).2 hm) (not_not_intro hb) (.inl hclk)
      · refine execN_repeats hic (fun history b script hb => ?_) bytes rest s.trace hidle
        exact execN_pollResult_unbounded hic
          ((sinkReadyWait (withBus history (.ok [b] :: script) s) hs).2 hm) hb (.inl hclk)
      · refine execN_repeats hic (fun history b script hb => ?_) bytes rest s.trace hidle
        exact execN_pollResult_unbounded hic
          ((requestPollWaitsForClear (withBus history (.ok [b] :: script) s) opc i st hcmd hs).2 hpoll) hb hfree
    obtain ⟨history', hexec, hreq⟩ := hrun
    rw [Nat.one_mul, ← hself] at hexec
    exact ⟨_, hexec, hreq, rfl⟩
  · rintro k s bytes rest hs hm hclk hic hscript rfl hidle
    obtain ⟨history', hexec, hreq⟩ := execN_repeats (s := s) hic
      (fun _ _ _ hb => execN_waitCaps_idle hic hs hm hclk hb) bytes rest s.trace hidle
    rw [withBus, ← hscript] at hexec
    exact ⟨_, hexec, hreq, rfl⟩

end Sys2Proof.Machine
end

section
/-!
PROOFS about runs of NVM primitives (R115 to R125): what a list of primitives asks of the IC, what it is answered when
every poll ends on its first read, and the steps that run it.
-/

namespace Sys2Proof.Machine

/-! ## What a run of the NVM states changes -/

/-- R115 to R125: from `s` to `t` the NVM states issue the requests `reqs`, and change nothing but the position, the
history, the script, the buffers, `SECT`, and what a clock sample changes. -/
def Ran (s : State) (reqs : List BusReq) (t : State) : Prop :=
  t = { s with
    seq := t.seq, mstep := t.mstep, trace := t.trace, icScript := t.icScript, mem := t.mem, sect := t.sect
    clkScript := t.clkScript, draws := t.draws, tStart := t.tStart } ∧
  requests t.trace = requests s.trace ++ reqs

section Ran

variable {s t u : State} {reqs reqs' : List BusReq}

theorem Ran.refl (s : State) : Ran s [] s := ⟨rfl, (List.append_nil _).symm⟩

theorem Ran.trans (h : Ran s reqs t) (h' : Ran t reqs' u) : Ran s (reqs ++ reqs') u := by
  obtain ⟨ht, hr⟩ := h
  obtain ⟨hu, hr'⟩ := h'
  refine ⟨hu.trans ?_, by rw [hr', hr, List.append_assoc]⟩
  rw [ht]

/-- R19: the position is not counted. -/
theorem Ran.movedTo (h : Ran s reqs t) (st : SeqState) (k : Nat) : Ran s reqs (movedTo st k t) := by
  obtain ⟨ht, hr⟩ := h
  exact ⟨by rw [Machine.movedTo, ht], hr⟩

theorem Ran.profile_eq (h : Ran s reqs t) : t.profile = s.profile := by rw [h.1]

theorem Ran.ic_eq (h : Ran s reqs t) : t.ic = s.ic := by rw [h.1]

theorem Ran.operands (h : Ran s reqs t) : SameOperands s t := by
  rw [h.1]
  simp [SameOperands]

theorem Ran.results (h : Ran s reqs t) : SameResults s t := by
  rw [h.1]
  simp [SameResults]

theorem Ran.inProgress {opc : BitVec 4} {st st' : SeqState} (h : Ran s reqs t) (hs : InProgress opc st s)
    (hq : t.seq = st') : InProgress opc st' t := by
  obtain ⟨hl, hf, hb, hc, -⟩ := hs
  refine ⟨?_, ?_, ?_, ?_, hq⟩ <;> rw [h.1] <;> assumption

theorem Ran.hasNvmConfig {c : NvmConfig} (h : Ran s reqs t) (hc : HasNvmConfig s c) : HasNvmConfig t c := by
  rw [h.1]
  exact hc

/-- R27, R28: a transaction that the script answers. -/
theorem ran_afterBus {req : BusReq} : Ran s [req] (afterBus s req) ↔ icAfter s req = s.ic := by
  constructor
  · exact fun h => h.ic_eq
  · intro hic
    exact ⟨by simp [afterBus, hic], by simp [requests, busEvent]⟩

end Ran

/-! ## One primitive -/

/-- R115 to R121: a primitive, from a memory and a `SECT` to those after it, with its requests and with answers under
which it succeeds at its first try. -/
inductive OpRun (p : DeviceProfile) :
    NvmOp → Memory × BitVec 3 → List BusReq → List IcAnswer → Memory × BitVec 3 → Prop
  | write (reg : Byte) (w : List Byte) (m : Memory × BitVec 3) :
      OpRun p (.write reg w) m [.write reg w] [acked] m
  | openSector (n : BitVec 3) (reg : Byte) (w : List Byte) (m : Memory × BitVec 3) :
      OpRun p (.openSector n reg w) m [.write reg w] [acked] (m.1, n)
  | loadSector {n : BitVec 3} {bytes : List Byte} {m : Memory × BitVec 3}
      (h : Memory.getBytes m.1 (scratchBase + 8 * n.toNat) 8 = some bytes) :
      OpRun p (.loadSector n) m [.write p.regNvmRwbuf bytes] [acked] (m.1, n)
  | ackStart (m : Memory × BitVec 3) : OpRun p .ackStart m [] [] m
  | ackPoll {b : Byte} (m : Memory × BitVec 3) (h : b &&& p.ctrl0Req = 0#8) :
      OpRun p .ackPoll m [.read p.regNvmCtrl0 1] [.ok [b]] m
  | readSector (base : Nat) {bytes : List Byte} {m : Memory × BitVec 3} (hsect : m.2.toNat ≤ 4)
      (hlen : bytes.length = 8) :
      OpRun p (.readSector base) m [.read p.regNvmRwbuf 8] [.ok bytes]
        (Memory.setBytes m.1 (base + 8 * m.2.toNat) bytes, m.2)

/-- What a primitive has left, before the move that follows it. -/
def OpLeaves (s : State) (reqs : List BusReq) (rest : List IcAnswer) (m : Memory × BitVec 3) (t : State) : Prop :=
  Ran s reqs t ∧ t.seq = s.seq ∧ t.mstep = s.mstep ∧ t.icScript = rest ∧ (t.mem, t.sect) = m

section OpRun

variable {s : State} {a : IcAnswer} {rest : List IcAnswer}

/-- R28: a transaction uses up one answer. -/
theorem opLeaves_afterBus (hic : s.ic = .oracle) (hscript : s.icScript = a :: rest) (req : BusReq) :
    OpLeaves s [req] rest (s.mem, s.sect) (afterBus s req) :=
  ⟨ran_afterBus.2 (by rw [icAfter, hic]), rfl, rfl, by simp [scriptAfter, hic, hscript], rfl⟩

/-- R33: what a primitive does to the buffers and `SECT` besides. -/
theorem OpLeaves.store {reqs : List BusReq} {m : Memory × BitVec 3} {t : State} (h : OpLeaves s reqs rest m t)
    (mem : Memory) (n : BitVec 3) : OpLeaves s reqs rest (mem, n) { t with mem := mem, sect := n } := by
  obtain ⟨⟨ht, hr⟩, hq, hm, hrest, -⟩ := h
  exact ⟨⟨by rw [ht], hr⟩, hq, hm, hrest, rfl⟩

theorem opLeaves_pollStart (budget : Option Nat) :
    OpLeaves s [] s.icScript (s.mem, s.sect) (pollStart budget s) := by
  unfold pollStart
  split
  · exact ⟨Ran.refl s, rfl, rfl, rfl, rfl⟩
  · unfold sampleStart afterNow
    split <;> exact ⟨⟨rfl, (List.append_nil _).symm⟩, rfl, rfl, rfl, rfl⟩

/-- One micro-step of a primitive. -/
theorem OpRun.step {op : NvmOp} {m : Memory × BitVec 3} {reqs : List BusReq} {as : List IcAnswer}
    (h : OpRun s.profile op (s.mem, s.sect) reqs as m) (hic : s.ic = .oracle) (hscript : s.icScript = as ++ rest) :
    ∃ t : State, (∀ move : State → State, nvmOpStep op move s = .next (move t)) ∧ OpLeaves s reqs rest m t := by
  cases h with
  | write reg w =>
    have hw : icAnswer s (.write reg w) = .ok [] := icAnswer_scripted_write hic hscript
    exact ⟨afterBus s (.write reg w), fun move => by rw [nvmOpStep, busWrite_ok hw], opLeaves_afterBus hic hscript _⟩
  | openSector n reg w =>
    have hw : icAnswer s (.write reg w) = .ok [] := icAnswer_scripted_write hic hscript
    exact ⟨{ afterBus s (.write reg w) with sect := n }, fun move => by rw [nvmOpStep, busWrite_ok hw],
      (opLeaves_afterBus hic hscript _).store s.mem n⟩
  | @loadSector n bytes _ hbytes =>
    have hw : icAnswer s (.write s.profile.regNvmRwbuf bytes) = .ok [] := icAnswer_scripted_write hic hscript
    exact ⟨{ afterBus s (.write s.profile.regNvmRwbuf bytes) with sect := n },
      fun move => (withOperand_of hbytes).trans (busWrite_ok hw), (opLeaves_afterBus hic hscript _).store s.mem n⟩
  | ackStart =>
    refine ⟨pollStart s.profile.nvmAckBudgetMs s, fun move => rfl, ?_⟩
    rw [show rest = s.icScript from hscript.symm]
    exact opLeaves_pollStart _
  | @ackPoll b _ hb =>
    have hr : icAnswer s (.read s.profile.regNvmCtrl0 1) = .ok [b] := icAnswer_scripted_read hic hscript rfl
    refine ⟨afterBus s (.read s.profile.regNvmCtrl0 1), fun move => ?_, opLeaves_afterBus hic hscript _⟩
    rw [nvmOpStep, pollRead, busRead_ok hr, if_pos (by simp [ackDone, byte0, hb])]
  | @readSector base bytes _ hsect hlen =>
    have hr : icAnswer s (.read s.profile.regNvmRwbuf 8) = .ok bytes := icAnswer_scripted_read hic hscript hlen
    exact ⟨storeSect base bytes (afterBus s (.read s.profile.regNvmRwbuf 8)),
      fun move => (if_neg (Nat.not_lt.2 hsect)).trans (busRead_ok hr),
      (opLeaves_afterBus hic hscript _).store (Memory.setBytes s.mem (base + 8 * s.sect.toNat) bytes) s.sect⟩

end OpRun

/-! ## A list of primitives -/

/-- R120 to R128: a list of primitives, one after the other. -/
inductive OpsRun (p : DeviceProfile) :
    List NvmOp → Memory × BitVec 3 → List BusReq → List IcAnswer → Memory × BitVec 3 → Prop
  | nil (m : Memory × BitVec 3) : OpsRun p [] m [] [] m
  | cons {op : NvmOp} {ops : List NvmOp} {m m' m'' : Memory × BitVec 3} {reqs reqs' : List BusReq}
      {as as' : List IcAnswer} (h : OpRun p op m reqs as m') (hs : OpsRun p ops m' reqs' as' m'') :
      OpsRun p (op :: ops) m (reqs ++ reqs') (as ++ as') m''

theorem OpsRun.append {p : DeviceProfile} {ops ops' : List NvmOp} {m m' m'' : Memory × BitVec 3}
    {reqs reqs' : List BusReq} {as as' : List IcAnswer} (h : OpsRun p ops m reqs as m')
    (h' : OpsRun p ops' m' reqs' as' m'') : OpsRun p (ops ++ ops') m (reqs ++ reqs') (as ++ as') m'' := by
  induction h with
  | nil => exact h'
  | cons hop _ ih =>
    rw [List.append_assoc, List.append_assoc]
    exact .cons hop (ih h')

section OpsRun

variable {opc : BitVec 4} {i : Instr} {st : SeqState}

/-- R19: the micro-step of the primitive at its place. -/
theorem OpRun.exec {op : NvmOp} {s : State} {reqs : List BusReq} {as rest : List IcAnswer} {m : Memory × BitVec 3}
    (h : OpRun s.profile op (s.mem, s.sect) reqs as m) (hruns : RunsList opc i st) (hs : InProgress opc st s)
    (hop : (nvmOps s.profile st)[s.mstep.toNat]? = some op) (hic : s.ic = .oracle) (hscript : s.icScript = as ++ rest) :
    ∃ t : State, Machine.exec i s = .next (nvmMove opc st s.mstep.toNat t) ∧ OpLeaves s reqs rest m t := by
  obtain ⟨t, hstep, hleaves⟩ := h.step hic hscript
  exact ⟨t, (hruns.exec_eq hs hop).trans (hstep _), hleaves⟩

/-- R19, R120 to R128: the steps that run the primitives `op :: ops`, from their place in the state's list on: all but
the last move to the next micro-step. -/
theorem OpsRun.execN {ops post : List NvmOp} {op : NvmOp} {s : State} {reqs : List BusReq} {as rest : List IcAnswer}
    {m : Memory × BitVec 3} (hrun : OpsRun s.profile (op :: ops) (s.mem, s.sect) reqs as m)
    (hruns : RunsList opc i st) (hs : InProgress opc st s)
    (hops : (nvmOps s.profile st).drop s.mstep.toNat = (op :: ops) ++ post) (hic : s.ic = .oracle)
    (hscript : s.icScript = as ++ rest) :
    ∃ t : State, Machine.execN i (ops.length + 1) s = .next (nvmMove opc st (s.mstep.toNat + ops.length) t) ∧
      Ran s reqs t ∧ t.seq = st ∧ t.mstep.toNat = s.mstep.toNat + ops.length ∧ t.icScript = rest ∧
      (t.mem, t.sect) = m := by
  induction ops generalizing op s reqs as with
  | nil =>
    cases hrun with | cons hop hnil =>
    cases hnil
    have hat : (nvmOps s.profile st)[s.mstep.toNat]? = some op := by rw [← List.head?_drop, hops]; rfl
    rw [List.append_nil] at hscript
    obtain ⟨t, hexec, hran, hq, hm, hscript', hstore⟩ := hop.exec hruns hs hat hic hscript
    rw [List.append_nil]
    exact ⟨t, execN_one hexec, hran, hq.trans hs.seq_eq, congrArg BitVec.toNat hm, hscript', hstore⟩
  | cons op' ops ih =>
    cases hrun with
    | @cons _ _ _ m' _ reqs₁ reqs₂ as₁ as₂ hop hrest =>
    have hat : (nvmOps s.profile st)[s.mstep.toNat]? = some op := by rw [← List.head?_drop, hops]; rfl
    rw [List.append_assoc] at hscript
    obtain ⟨t, hexec, hran, hq, hm, hscript', rfl⟩ := hop.exec hruns hs hat hic hscript
    have hlt : s.mstep.toNat + 1 < microSteps st := by
      have hlen := congrArg List.length hops
      simp only [List.length_drop, nvmOps_length hruns, List.length_append, List.length_cons] at hlen
      omega
    rw [nvmMove_of_lt hlt (hq.trans hs.seq_eq) (congrArg BitVec.toNat hm)] at hexec
    have hmoved := hran.movedTo st (s.mstep.toNat + 1)
    have hmstep : (movedTo st (s.mstep.toNat + 1) t).mstep.toNat = s.mstep.toNat + 1 :=
      Nat.mod_eq_of_lt ((hlt.trans_le (microSteps_le st)).trans (by decide))
    have hdrop : (nvmOps (movedTo st (s.mstep.toNat + 1) t).profile st).drop
        (movedTo st (s.mstep.toNat + 1) t).mstep.toNat = op' :: ops ++ post := by
      rw [hmstep, hmoved.profile_eq, ← List.tail_drop, hops]
      rfl
    obtain ⟨u, hexecN, hran', hq', hm', hrest', hstore⟩ := ih (hmoved.profile_eq ▸ hrest) (hmoved.inProgress hs rfl)
      hdrop (hmoved.ic_eq.trans hic) hscript'
    rw [hmstep] at hexecN hm'
    refine ⟨u, ?_, hmoved.trans hran', hq', ?_, hrest', hstore⟩
    · rw [List.length_cons, Nat.add_comm _ 1, execN_trans (execN_one hexec) hexecN, Nat.add_assoc, Nat.add_comm 1]
    · rw [hm', List.length_cons, Nat.add_assoc, Nat.add_comm 1]

end OpsRun

end Sys2Proof.Machine
end

section
/-!
PROOFS about the lists of primitives (R118 to R125): the requests each makes, its answers, and the buffers it leaves;
then NVM_READ, NVM_ERASE and a sector of NVM_PROGRAM as a whole.
-/

namespace Sys2Proof.Machine

/-! ## Sectors of an image -/

theorem sectorOf_length (img : Image) {n : Nat} (hn : n < 5) : (sectorOf img n).length = 8 := by
  simp only [sectorOf, List.length_take, List.length_drop, Vector.length_toList]
  omega

theorem getElem?_sectorOf (img : Image) (n : Nat) {j : Nat} (hj : j < 8) : (sectorOf img n)[j]? = img[8 * n + j]? := by
  rw [sectorOf, List.getElem?_take_of_lt hj, List.getElem?_drop, Vector.getElem?_toList]

/-- R122: the buffer at `base` after the first sectors of an image are stored there. -/
def storeSectors (m : Memory) (base : Nat) (img : Image) : Nat → Memory
  | 0 => m
  | n + 1 => Memory.setBytes (storeSectors m base img n) (base + 8 * n) (sectorOf img n)

theorem get_storeSectors (m : Memory) (base : Nat) (img : Image) {n : Nat} (hn : n ≤ 5) (a : Nat) :
    Memory.get (storeSectors m base img n) a =
      if base ≤ a ∧ a < base + 8 * n then img[a - base]? else Memory.get m a := by
  induction n with
  | zero => rw [if_neg (by omega), storeSectors]
  | succ n ih =>
    rw [storeSectors, Memory.get_setBytes, sectorOf_length img (by omega), ih (by omega)]
    by_cases hin : base + 8 * n ≤ a ∧ a < base + 8 * n + 8
    · rw [if_pos hin, if_pos (by omega), getElem?_sectorOf img n (by omega)]
      congr 1
      omega
    · rw [if_neg hin]
      exact if_congr (by omega) rfl rfl

/-- R125: the bytes `WriteSector(n)` reads. -/
theorem HoldsImage.getBytes_sector {m : Memory} {base n : Nat} {img : Image} (h : HoldsImage m base img) (hn : n < 5) :
    Memory.getBytes m (base + 8 * n) 8 = some (sectorOf img n) :=
  Memory.getBytes_eq_some.2 ⟨sectorOf_length img hn, fun j hj => by
    rw [getElem?_sectorOf img n hj, Nat.add_assoc, h (8 * n + j) (by omega)]⟩

/-! ## The lists -/

/-- R128: the requests of the program loop. -/
def programRequests (p : DeviceProfile) (img : Image) : List BusReq :=
  writeSectorRequests p img 0 ++ writeSectorRequests p img 1 ++ writeSectorRequests p img 2 ++
    writeSectorRequests p img 3 ++ writeSectorRequests p img 4

/-- R128: the answers to the program loop. -/
def programAnswers (ack : Nat → Byte) : List IcAnswer :=
  writeSectorAnswers ack 0 ++ writeSectorAnswers ack 1 ++ writeSectorAnswers ack 2 ++ writeSectorAnswers ack 3 ++
    writeSectorAnswers ack 4

section Lists

variable {p : DeviceProfile} {ack : Nat → Byte}

theorem opsRun_issueOp {b : Byte} (op ser : Byte) (sect : BitVec 3) (m : Memory × BitVec 3)
    (hb : b &&& p.ctrl0Req = 0#8) :
    OpsRun p (issueOp p op ser sect) m (issueRequests p op ser (sect.setWidth 8)) (issueAnswers b) m :=
  .cons (.write ..) (.cons (.write ..) (.cons (.ackStart m) (.cons (.ackPoll m hb) (.nil m))))

theorem opsRun_exitOps (m : Memory × BitVec 3) : OpsRun p (exitOps p) m (exitRequests p) [acked, acked, acked] m :=
  .cons (.write ..) (.cons (.write ..) (.cons (.write ..) (.nil m)))

theorem opsRun_enterReadMode (m : Memory × BitVec 3) :
    OpsRun p (enterReadMode p) m (enterReadRequests p) [acked, acked, acked] m :=
  .cons (.write ..) (.cons (.write ..) (.cons (.write ..) (.nil m)))

theorem opsRun_readSectorOps (hack : ∀ k, ack k &&& p.ctrl0Req = 0#8) (base : Nat) (img : Image) {n : BitVec 3}
    (hn : n.toNat < 5) (m : Memory × BitVec 3) :
    OpsRun p (readSectorOps p base n) m (readSectorRequests p (n.setWidth 8)) (readSectorAnswers ack img n.toNat)
      (Memory.setBytes m.1 (base + 8 * n.toNat) (sectorOf img n.toNat), n) :=
  .cons (.openSector ..) <| (opsRun_issueOp p.opRead 0#8 n (m.1, n) (hack n.toNat)).append <|
    .cons (.readSector base (Nat.le_of_lt_succ hn) (sectorOf_length img hn)) (.cons (.write ..) (.nil _))

/-- R122: `ReadImage` reads the five sectors of the image. -/
theorem opsRun_readImageOps (hack : ∀ k, ack k &&& p.ctrl0Req = 0#8) (base : Nat) (img : Image) (m : Memory)
    (sect : BitVec 3) :
    OpsRun p (readImageOps p base) (m, sect) (readImageRequests p) (readImageAnswers ack img)
      (storeSectors m base img 5, 4#3) :=
  (((((opsRun_enterReadMode (m, sect)).append (opsRun_readSectorOps hack base img (n := 0#3) (by decide) _)).append
    (opsRun_readSectorOps hack base img (n := 1#3) (by decide) _)).append
    (opsRun_readSectorOps hack base img (n := 2#3) (by decide) _)).append
    (opsRun_readSectorOps hack base img (n := 3#3) (by decide) _)).append
    (opsRun_readSectorOps hack base img (n := 4#3) (by decide) _) |>.append (opsRun_exitOps _)

/-- R124: `EnterWriteMode` issues its three operations. -/
theorem opsRun_enterWriteMode (hack : ∀ k, ack k &&& p.ctrl0Req = 0#8) (m : Memory × BitVec 3) :
    OpsRun p (enterWriteMode p) m (enterWriteRequests p) (enterWriteAnswers ack) m := by
  have hopen : OpsRun p [unlock p, .write p.regNvmRwbuf [0x00#8], ctrlReset p, powerOn p] m
      [wr p.regNvmPassword p.nvmPassword, wr p.regNvmRwbuf 0#8, wr p.regNvmCtrl0 p.ctrl0ResetValue,
        wr p.regNvmCtrl0 (powerByte p)] [acked, acked, acked, acked] m :=
    .cons (.write ..) (.cons (.write ..) (.cons (.write ..) (.cons (.write ..) (.nil m))))
  exact ((hopen.append (opsRun_issueOp p.opWriteSer (eraseAllSer p) 0#3 m (hack 0))).append
    (opsRun_issueOp p.opSoftProgSector 0#8 0#3 m (hack 1))).append
    (opsRun_issueOp p.opEraseSector 0#8 0#3 m (hack 2))

/-- R125: `WriteSector(n)` writes the sector's bytes of the image in scratch. -/
theorem opsRun_writeSectorOps (hack : ∀ k, ack k &&& p.ctrl0Req = 0#8) {img : Image} {n : BitVec 3}
    (hn : n.toNat < 5) {m : Memory} (himg : HoldsImage m scratchBase img) (sect : BitVec 3) :
    OpsRun p (writeSectorOps p n) (m, sect) (writeSectorRequests p img n.toNat) (writeSectorAnswers ack n.toNat)
      (m, n) := by
  have hload : OpsRun p [.loadSector n, powerOn p] (m, sect)
      [.write p.regNvmRwbuf (sectorOf img n.toNat), wr p.regNvmCtrl0 (powerByte p)] [acked, acked] (m, n) :=
    .cons (.loadSector (himg.getBytes_sector hn)) (.cons (.write ..) (.nil _))
  rw [writeSectorRequests, BitVec.ofNat_toNat]
  exact (hload.append (opsRun_issueOp p.opWritePl 0#8 0#3 (m, n) (hack (2 * n.toNat)))).append
    (opsRun_issueOp p.opProgSector 0#8 n (m, n) (hack (2 * n.toNat + 1)))

/-- R128: the program loop writes the five sectors of the image in scratch. -/
theorem opsRun_programOps (hack : ∀ k, ack k &&& p.ctrl0Req = 0#8) {img : Image} {m : Memory}
    (himg : HoldsImage m scratchBase img) (sect : BitVec 3) :
    OpsRun p (programOps p) (m, sect) (programRequests p img) (programAnswers ack) (m, 4#3) :=
  ((((opsRun_writeSectorOps hack (n := 0#3) (by decide) himg sect).append
    (opsRun_writeSectorOps hack (n := 1#3) (by decide) himg _)).append
    (opsRun_writeSectorOps hack (n := 2#3) (by decide) himg _)).append
    (opsRun_writeSectorOps hack (n := 3#3) (by decide) himg _)).append
    (opsRun_writeSectorOps hack (n := 4#3) (by decide) himg _)

end Lists

/-! ## A whole state -/

/-- R120 to R128: a state that runs its whole list, from its first micro-step. -/
theorem OpsRun.execN_state {opc : BitVec 4} {i : Instr} {st : SeqState} {s : State} {reqs : List BusReq}
    {as rest : List IcAnswer} {m : Memory × BitVec 3}
    (hrun : OpsRun s.profile (nvmOps s.profile st) (s.mem, s.sect) reqs as m) (hruns : RunsList opc i st)
    (hs : InProgress opc st s) (hm : s.mstep = 0#8) (hic : s.ic = .oracle) (hscript : s.icScript = as ++ rest) :
    ∃ t : State, Machine.execN i (microSteps st) s = .next (nvmLeave opc st t) ∧ Ran s reqs t ∧ t.icScript = rest ∧
      t.mem = m.1 := by
  have hlen := nvmOps_length hruns s.profile
  have h0 : s.mstep.toNat = 0 := by rw [hm]; rfl
  cases hops : nvmOps s.profile st with
  | nil => rcases hruns with ⟨-, -, rfl⟩ | ⟨-, -, rfl | rfl | rfl | rfl | rfl⟩ <;> cases hops
  | cons op ops =>
    rw [hops] at hrun hlen
    obtain ⟨t, hexec, hran, -, -, hrest, hstore⟩ := hrun.execN (post := []) hruns hs
      (by rw [h0, List.append_nil]; exact hops) hic hscript
    rw [← hlen, List.length_cons]
    rw [h0, Nat.zero_add, nvmMove, ← hlen, List.length_cons, if_neg (Nat.lt_irrefl _)] at hexec
    exact ⟨t, hexec, hran, hrest, congrArg Prod.fst hstore⟩

/-- Settles O47: the issue, then the list of `ReadImage`. -/
theorem nvmReadSuccess : Obligations.NvmReadSuccess := by
  refine ⟨rfl, fun s img ack rest hs hic hack hscript => ?_⟩
  have hissue : exec .nvmRead s = .next (issued 8#4 .nvmReadImage s) := hs.exec_eq rfl (by decide)
  have hbusy : InProgress 8#4 .nvmReadImage (issued 8#4 .nvmReadImage s) := ⟨hs.1, hs.2.1, rfl, rfl, rfl⟩
  obtain ⟨t, hexec, hran, hrest, hmem⟩ := OpsRun.execN_state (st := .nvmReadImage)
    (s := issued 8#4 .nvmReadImage s)
    (opsRun_readImageOps hack imgBase img s.mem s.sect) (.inl ⟨rfl, rfl, rfl⟩) hbusy rfl hic hscript
  obtain ⟨-, hf, -, hc, -⟩ := hran.inProgress hbusy rfl
  refine ⟨endOk t, execN_trans (execN_one hissue) hexec, hran.2, rfl, hrest, rfl, rfl, rfl, rfl, hf, rfl, hc,
    fun a => ?_, hran.operands, hran.results⟩
  exact hmem ▸ get_storeSectors s.mem imgBase img (Nat.le_refl 5) a

/-- Settles O50: NVM_ERASE runs the list of `EnterWriteMode`. -/
theorem enterWriteModeOrder : Obligations.EnterWriteModeOrder := by
  intro s ack rest hs hm hic hack hscript
  obtain ⟨t, hexec, hran, hrest, hmem⟩ := (opsRun_enterWriteMode hack (s.mem, s.sect)).execN_state
    (.inr ⟨rfl, rfl, .inr (.inl rfl)⟩) hs hm hic hscript
  exact ⟨goto .nvmProgram t, hexec, hran.2, rfl, hrest,
    (hran.movedTo .nvmProgram 0).inProgress hs rfl, rfl, hmem, hran.operands, hran.results⟩

/-- R128: where the sectors stand in the program loop. -/
theorem programOps_drop (p : DeviceProfile) {n : Nat} (hn : n < 5) :
    ∃ post, (programOps p).drop (10 * n) = writeSectorOps p (BitVec.ofNat 3 n) ++ post := by
  interval_cases n <;> exact ⟨_, rfl⟩

/-- R128: after the sector at `10 * n` the next sector, or NVM_EXIT. -/
theorem nvmMove_of_sector {t : State} {n : Nat} (hn : n < 5) (hq : t.seq = .nvmProgram)
    (hm : t.mstep.toNat = 10 * n + 9) :
    nvmMove 10#4 .nvmProgram (10 * n + 9) t =
      if n < 4 then movedTo .nvmProgram (10 * (n + 1)) t else movedTo .nvmExit 0 t := by
  have h50 : microSteps .nvmProgram = 50 := rfl
  split
  case isTrue h => exact nvmMove_of_lt (by omega) hq hm
  case isFalse h =>
    rw [nvmMove, if_neg (by omega)]
    rfl

/-- Settles O51: the primitives of `WriteSector(n)` at their place in the program loop. -/
theorem writeSectorOrder : Obligations.WriteSectorOrder := by
  intro s n img ack rest hs hn hm hic himg hack hscript
  obtain ⟨post, hdrop⟩ := programOps_drop s.profile hn
  have hsect : (BitVec.ofNat 3 n).toNat = n := Nat.mod_eq_of_lt (by omega)
  have hrun := opsRun_writeSectorOps hack (n := BitVec.ofNat 3 n) (by omega) himg s.sect
  rw [hsect] at hrun
  obtain ⟨t, hexec, hran, hq, hmt, hrest, hstore⟩ := hrun.execN (.inr ⟨rfl, rfl, .inr (.inr (.inl rfl))⟩) hs
    (by rw [hm]; exact hdrop) hic hscript
  rw [hm] at hexec hmt
  have hmove := nvmMove_of_sector hn hq hmt
  by_cases hlast : n < 4
  · rw [if_pos hlast] at hmove
    refine ⟨_, hexec.trans (congrArg _ hmove), hran.2, rfl, hrest, congrArg Prod.fst hstore, hran.operands,
      hran.results, fun _ => ⟨(hran.movedTo _ _).inProgress hs rfl, ?_⟩, fun h => absurd h (by omega)⟩
    exact Nat.mod_eq_of_lt (by omega)
  · rw [if_neg hlast] at hmove
    exact ⟨_, hexec.trans (congrArg _ hmove), hran.2, rfl, hrest, congrArg Prod.fst hstore, hran.operands,
      hran.results, fun h => absurd h hlast, fun _ => ⟨(hran.movedTo _ _).inProgress hs rfl, rfl⟩⟩

end Sys2Proof.Machine
end

section
/-!
PROOFS about a whole NVM_FLASH (R126 to R133): its states one after the other, and two runs in a row.
-/

namespace Sys2Proof.Machine

/-! ## From state to state -/

/-- R126: `n` steps after its start at `s`, NVM_FLASH is at `t`, which is the start of the state `st`, with the requests
`reqs` made, the answers `rest` to come and the buffers `m`. -/
structure FlashAt (s : State) (n : Nat) (reqs : List BusReq) (rest : List IcAnswer) (st : SeqState) (m : Memory)
    (t : State) : Prop where
  exec : execN .nvmFlash n s = .next t
  ran : Ran s reqs t
  place : InProgress 10#4 st t
  start : t.mstep = 0#8
  oracle : t.ic = .oracle
  script : t.icScript = rest
  mem : t.mem = m

section FlashAt

variable {s t : State} {n : Nat} {reqs reqs' : List BusReq} {as rest : List IcAnswer} {st next : SeqState}
  {m m' : Memory}

/-- R126 to R129: a state that runs its list of primitives. -/
theorem FlashAt.runList (h : FlashAt s n reqs (as ++ rest) st m t) (hruns : RunsList 10#4 .nvmFlash st)
    (hnext : nvmLeave 10#4 st = goto next)
    (hrun : ∀ sect, ∃ sect', OpsRun s.profile (nvmOps s.profile st) (m, sect) reqs' as (m', sect')) :
    ∃ u : State, FlashAt s (n + microSteps st) (reqs ++ reqs') rest next m' u := by
  obtain ⟨hexec, hran, hplace, hstart, horacle, hscript, rfl⟩ := h
  obtain ⟨sect', hops⟩ := hrun t.sect
  obtain ⟨u, hexec', hran', hrest, hmem⟩ := OpsRun.execN_state (hran.profile_eq ▸ hops) hruns hplace hstart
    horacle hscript
  rw [hnext] at hexec'
  have hmoved := hran'.movedTo next 0
  exact ⟨goto next u, execN_trans hexec hexec', hran.trans hmoved, hmoved.inProgress hplace rfl, rfl,
    hmoved.ic_eq.trans horacle, hrest, hmem⟩

/-- R127: a step that writes a buffer and moves on. -/
theorem FlashAt.store (h : FlashAt s n reqs rest st m t)
    (hstep : Machine.exec .nvmFlash t = .next (movedTo next 0 { t with mem := m' })) :
    FlashAt s (n + 1) reqs rest next m' (movedTo next 0 { t with mem := m' }) := by
  obtain ⟨hexec, hran, hplace, hstart, horacle, hscript, -⟩ := h
  have hstored : Ran t [] { t with mem := m' } := ⟨rfl, (List.append_nil _).symm⟩
  have hwhole := hran.trans (hstored.movedTo next 0)
  rw [List.append_nil] at hwhole
  exact ⟨execN_trans hexec (execN_one hstep), hwhole,
    (hstored.movedTo next 0).inProgress hplace rfl, rfl, horacle, hscript, rfl⟩

/-- R127: the patch state. -/
theorem FlashAt.patch {c : NvmConfig} {img : Image} (h : FlashAt s n reqs rest .nvmPatch m t) (hc : HasNvmConfig s c)
    (himg : HoldsImage m imgBase img) :
    ∃ u : State, FlashAt s (n + 1) reqs rest .nvmErase (storeImage m scratchBase (applyConfig s.profile c img)) u := by
  obtain ⟨-, hran, hplace, -, -, -, rfl⟩ := id h
  have hpatch : applyConfig t.profile c img = applyConfig s.profile c img := by rw [hran.profile_eq]
  refine ⟨_, h.store ?_⟩
  rw [hplace.nvmFlash, flashStep, hplace.seq_eq, ← hpatch]
  exact flashPatchStep_of (hran.hasNvmConfig hc) himg

/-- R130: the compare ends the run. -/
theorem FlashAt.compare {x v : Image} (h : FlashAt s n reqs rest .nvmCompare m t) (hx : HoldsImage m scratchBase x)
    (hv : HoldsImage m verifyBase v) :
    execN .nvmFlash (n + 1) s = .next (if v = x then finished t else failedWith 8#4 t) := by
  obtain ⟨hexec, -, hplace, -, -, -, rfl⟩ := h
  have hstep : Machine.exec .nvmFlash t = compareStep t := by rw [hplace.nvmFlash, flashStep, hplace.seq_eq]
  exact execN_trans hexec (execN_one (hstep.trans (compareStep_of hx hv)))

end FlashAt

/-! ## The three images -/

/-- R126 to R129: the buffers after an image is read, patched in scratch, and read back. -/
def flashMemory (m : Memory) (img patched back : Image) : Memory :=
  storeSectors (storeImage (storeSectors m imgBase img 5) scratchBase patched) verifyBase back 5

/-- R132: a byte of the buffers after a run that leaves these images. -/
def flashByte (m : Memory) (img patched back : Image) (a : Nat) : Option Byte :=
  if 0x48 ≤ a ∧ a < 0x70 then img[a - 0x48]?
  else if 0x70 ≤ a ∧ a < 0x98 then patched[a - 0x70]?
  else if 0x98 ≤ a ∧ a < 0xC0 then back[a - 0x98]?
  else Memory.get m a

theorem get_flashMemory (m : Memory) (img patched back : Image) (a : Nat) :
    Memory.get (flashMemory m img patched back) a = flashByte m img patched back a := by
  simp only [flashMemory, flashByte, get_storeSectors _ _ _ (Nat.le_refl 5), get_storeImage, imgBase, scratchBase,
    verifyBase]
  grind

theorem holdsImage_of_get {m : Memory} {base : Nat} {img : Image}
    (h : ∀ a, base ≤ a ∧ a < base + 40 → Memory.get m a = img[a - base]?) : HoldsImage m base img := fun j hj => by
  rw [h (base + j) (by omega), Nat.add_sub_cancel_left]

/-- R132: the images of such a run are in their buffers. -/
theorem holdsImages_of_get {m m' : Memory} {img patched back : Image}
    (h : ∀ a, Memory.get m' a = flashByte m img patched back a) :
    HoldsImage m' imgBase img ∧ HoldsImage m' scratchBase patched ∧ HoldsImage m' verifyBase back := by
  refine ⟨holdsImage_of_get fun a ha => ?_, holdsImage_of_get fun a ha => ?_, holdsImage_of_get fun a ha => ?_⟩ <;>
    simp only [imgBase, scratchBase, verifyBase] at ha ⊢ <;> rw [h, flashByte]
  · rw [if_pos ha]
  · rw [if_neg (by omega), if_pos ha]
  · rw [if_neg (by omega), if_neg (by omega), if_pos ha]

section FlashRun

variable {s : State} {c : NvmConfig} {img back : Image} {ackRead ackErase ackProg ackBack : Nat → Byte}
  {rest : List IcAnswer}

/-- R126 to R130: the states of NVM_FLASH in order, to its compare. -/
theorem flash_reaches_compare (hs : InProgress 10#4 .nvmReadImage s) (hm : s.mstep = 0#8) (hic : s.ic = .oracle)
    (hc : HasNvmConfig s c)
    (hread : ∀ k, ackRead k &&& s.profile.ctrl0Req = 0#8) (herase : ∀ k, ackErase k &&& s.profile.ctrl0Req = 0#8)
    (hprog : ∀ k, ackProg k &&& s.profile.ctrl0Req = 0#8) (hback : ∀ k, ackBack k &&& s.profile.ctrl0Req = 0#8)
    (hscript : s.icScript = flashAnswers ackRead ackErase ackProg ackBack img back ++ rest) :
    ∃ t : State, FlashAt s 152 (flashRequests s.profile (applyConfig s.profile c img)) rest .nvmCompare
      (flashMemory s.mem img (applyConfig s.profile c img) back) t := by
  have hparts : s.icScript = readImageAnswers ackRead img ++ (enterWriteAnswers ackErase ++ (programAnswers ackProg ++
      ([acked, acked, acked] ++ (readImageAnswers ackBack back ++ rest)))) := by
    rw [hscript]
    simp only [flashAnswers, programAnswers, List.append_assoc]
  have h0 : FlashAt s 0 [] s.icScript .nvmReadImage s.mem s := ⟨rfl, Ran.refl s, hs, hm, hic, rfl, rfl⟩
  rw [hparts] at h0
  obtain ⟨t1, h1⟩ := h0.runList (.inr ⟨rfl, rfl, .inl rfl⟩) rfl
    fun sect => ⟨_, opsRun_readImageOps hread imgBase img s.mem sect⟩
  have himg : HoldsImage (storeSectors s.mem imgBase img 5) imgBase img :=
    holdsImage_of_get fun a ha => by rw [get_storeSectors _ _ _ (Nat.le_refl 5), if_pos ha]
  obtain ⟨t2, h2⟩ := h1.patch hc himg
  obtain ⟨t3, h3⟩ := h2.runList (.inr ⟨rfl, rfl, .inr (.inl rfl)⟩) rfl
    fun sect => ⟨_, opsRun_enterWriteMode herase (_, sect)⟩
  have hpatched : HoldsImage (storeImage (storeSectors s.mem imgBase img 5) scratchBase (applyConfig s.profile c img))
      scratchBase (applyConfig s.profile c img) :=
    holdsImage_of_get fun a ha => by rw [get_storeImage, if_pos ha]
  obtain ⟨t4, h4⟩ := h3.runList (.inr ⟨rfl, rfl, .inr (.inr (.inl rfl))⟩) rfl
    fun sect => ⟨_, opsRun_programOps hprog hpatched sect⟩
  obtain ⟨t5, h5⟩ := h4.runList (.inr ⟨rfl, rfl, .inr (.inr (.inr (.inl rfl)))⟩) rfl
    fun sect => ⟨_, opsRun_exitOps (_, sect)⟩
  obtain ⟨t6, h6⟩ := h5.runList (.inr ⟨rfl, rfl, .inr (.inr (.inr (.inr rfl)))⟩) rfl
    fun sect => ⟨_, opsRun_readImageOps hback verifyBase back _ sect⟩
  have hreqs : [] ++ readImageRequests s.profile ++ enterWriteRequests s.profile ++
      programRequests s.profile (applyConfig s.profile c img) ++ exitRequests s.profile ++
      readImageRequests s.profile = flashRequests s.profile (applyConfig s.profile c img) := by
    simp only [flashRequests, programRequests, List.append_assoc, List.nil_append]
  rw [hreqs] at h6
  exact ⟨t6, h6⟩

end FlashRun

theorem readImageRequests_length (p : DeviceProfile) : (readImageRequests p).length = 36 := rfl

theorem enterWriteRequests_length (p : DeviceProfile) : (enterWriteRequests p).length = 13 := rfl

theorem writeSectorRequests_length (p : DeviceProfile) (img : Image) (n : Nat) :
    (writeSectorRequests p img n).length = 8 := rfl

theorem exitRequests_length (p : DeviceProfile) : (exitRequests p).length = 3 := rfl

/-- R132: 36 + 13 + 5 · 8 + 3 + 36. -/
theorem flashRequests_length (p : DeviceProfile) (img : Image) : (flashRequests p img).length = 128 := by
  simp only [flashRequests, List.length_append, readImageRequests_length, enterWriteRequests_length,
    writeSectorRequests_length, exitRequests_length]

/-- Settles O53: the issue, the states in order, and the compare. -/
theorem flashRun : Obligations.FlashRun := by
  refine ⟨rfl, ?_⟩
  intro s c img back ackRead ackErase ackProg ackBack rest hs hic hc hr hread herase hprog hback hscript
  have hissue : exec .nvmFlash s = .next (issued 10#4 .nvmReadImage s) := hs.nvmFlash_valid hc hr
  have hbusy : InProgress 10#4 .nvmReadImage (issued 10#4 .nvmReadImage s) := ⟨hs.1, hs.2.1, rfl, rfl, rfl⟩
  obtain ⟨t, ht⟩ : ∃ t, FlashAt (issued 10#4 .nvmReadImage s) 152
      (flashRequests s.profile (applyConfig s.profile c img)) rest .nvmCompare
      (flashMemory s.mem img (applyConfig s.profile c img) back) t :=
    flash_reaches_compare hbusy rfl hic hc hread herase hprog hback hscript
  have hget := get_flashMemory s.mem img (applyConfig s.profile c img) back
  obtain ⟨-, hpatched, hreadBack⟩ := holdsImages_of_get hget
  have hend := execN_trans (execN_one hissue) (ht.compare hpatched hreadBack)
  obtain ⟨-, hran, ⟨-, hf, -, hcmd, -⟩, hstart, horacle, hrest, hmem⟩ := ht
  rw [← hmem] at hget
  have hlen := flashRequests_length s.profile (applyConfig s.profile c img)
  by_cases heq : back = applyConfig s.profile c img
  · rw [if_pos heq] at hend
    exact ⟨finished t, hend, hran.2, hlen, hrest, rfl, hf, rfl, hcmd, horacle, hget, hran.operands, hran.results,
      fun _ => ⟨rfl, rfl, rfl⟩, fun h => absurd heq h⟩
  · rw [if_neg heq] at hend
    exact ⟨failedWith 8#4 t, hend, hran.2, hlen, hrest, rfl, hf, rfl, hcmd, horacle, hget, hran.operands, hran.results,
      fun h => absurd h heq, fun _ => ⟨rfl, rfl, rfl⟩⟩

theorem HasNvmConfig.of_sameOperands {s t : State} {c : NvmConfig} (hc : HasNvmConfig s c) (h : SameOperands s t) :
    HasNvmConfig t c := by
  obtain ⟨-, -, -, -, -, -, -, -, h1I, h2V, h2I, h3V, h3I, hflex, hnum, hsrc, habove, hgpio⟩ := h
  simpa only [HasNvmConfig, h1I, h2V, h2I, h3V, h3I, hflex, hnum, hsrc, habove, hgpio] using hc

/-- Settles O54: the second run patches an image that is already patched. -/
theorem flashTwice : Obligations.FlashTwice := by
  rintro s c img patched ack rest hs hic hc hr hack hpatched hscript
  obtain ⟨t, hexec, -, -, hrest, hb, hf, -, -, hict, hget, hops, -, hok, -⟩ :=
    flashRun.2 s c img patched ack ack ack ack _ hs hic hc hr hack hack hack hack hscript
  rw [← hpatched] at hget
  have hprofile : t.profile = s.profile := hops.1
  have hct := hc.of_sameOperands hops
  have hidem : applyConfig t.profile c patched = patched := by
    rw [hprofile, hpatched]
    exact (patchIsIdempotentAndDeterministic s.profile c img img hs.1).1
  obtain ⟨u, hexec', hreq, -, hrest', -, -, -, -, -, hget', -, -, hok', -⟩ :=
    flashRun.2 t c patched patched ack ack ack ack _ ⟨hprofile ▸ hs.1, hf, hb⟩ hict hct hr (hprofile ▸ hack)
      (hprofile ▸ hack) (hprofile ▸ hack) (hprofile ▸ hack) hrest
  rw [hidem] at hreq hget' hok'
  obtain ⟨-, hscratch, -⟩ := holdsImages_of_get hget
  obtain ⟨himg', hscratch', hback'⟩ := holdsImages_of_get hget'
  exact ⟨t, u, hexec, hexec', (hok hpatched).2.2, (hok' rfl).2.2, hscratch, himg', hscratch', hback', hprofile ▸ hreq,
    hrest'⟩

end Sys2Proof.Machine
end

section
/-!
PROOFS about a whole NEGOTIATE (R83, R92): its states one after the other, with an IC whose every poll ends on its first
read.
-/

namespace Sys2Proof.Machine

/-! ## From state to state -/

/-- The registers that later states of NEGOTIATE read. -/
structure NegRegs where
  mem : Memory
  capCount : Option Byte
  rxHdr : Option U16
  selWord : U32
  selBestP : U32
  selBestIdx : BitVec 3

def negRegs (s : State) : NegRegs := ⟨s.mem, s.capCount, s.rxHdr, s.selWord, s.selBestP, s.selBestIdx⟩

/-- A step of NEGOTIATE keeps everything but its position, the bus, what a clock sample changes, and the registers it
writes. -/
def NegKeeps (t u : State) : Prop :=
  u = { t with
    seq := u.seq, mstep := u.mstep, trace := u.trace, icScript := u.icScript, mem := u.mem, res0 := u.res0
    capCount := u.capCount, rxHdr := u.rxHdr, selFound := u.selFound, selBestP := u.selBestP
    selBestIdx := u.selBestIdx, selI := u.selI, selWord := u.selWord, clkScript := u.clkScript, draws := u.draws
    tStart := u.tStart }

theorem NegKeeps.operands {t u : State} (h : NegKeeps t u) : SameOperands t u := by
  rw [h]
  simp [SameOperands]

theorem SameOperands.trans {s t u : State} (h : SameOperands s t) (h' : SameOperands t u) : SameOperands s u := by
  simp only [SameOperands] at h h' ⊢
  simp only [h', h, and_self]

/-- R83: `n` steps after `s`, NEGOTIATE is at `t`, which is micro-step `k` of the state `st`, with the requests `reqs`
made, the answers `rest` to come and the registers `r`. -/
structure NegAt (s : State) (n : Nat) (reqs : List BusReq) (rest : List IcAnswer) (st : SeqState) (k : Nat)
    (r : NegRegs) (t : State) : Prop where
  exec : execN .negotiate n s = .next t
  place : InProgress 7#4 st t
  start : t.mstep = BitVec.ofNat 8 k
  oracle : t.ic = .oracle
  script : t.icScript = rest
  requests : requests t.trace = requests s.trace ++ reqs
  operands : SameOperands s t
  regs : negRegs t = r

section NegAt

variable {s t u : State} {n k k' : Nat} {reqs reqs' : List BusReq} {a : IcAnswer} {rest rest' : List IcAnswer}
  {st st' : SeqState} {r r' : NegRegs}

theorem NegAt.profile_eq (h : NegAt s n reqs rest st k r t) : t.profile = s.profile := h.operands.1

/-- A step, by what it leaves. -/
theorem NegAt.step (h : NegAt s n reqs rest st k r t) (hstep : Machine.exec .negotiate t = .next u)
    (hkeep : NegKeeps t u) (hreq : Machine.requests u.trace = Machine.requests t.trace ++ reqs')
    (hscript : u.icScript = rest') (hq : u.seq = st') (hm : u.mstep = BitVec.ofNat 8 k') (hregs : negRegs u = r') :
    NegAt s (n + 1) (reqs ++ reqs') rest' st' k' r' u := by
  obtain ⟨hexec, ⟨hl, hf, hb, hc, -⟩, -, hic, -, hreqs, hops, -⟩ := h
  refine ⟨execN_trans hexec (execN_one hstep), ⟨?_, ?_, ?_, ?_, hq⟩, hm, ?_, hscript, ?_, hops.trans hkeep.operands,
    hregs⟩
  iterate 5 rw [hkeep]; assumption
  rw [hreq, hreqs, List.append_assoc]

/-- R27: a step that is a transaction, which uses up one answer. -/
theorem NegAt.transact (h : NegAt s n reqs (a :: rest) st k r t) {req : BusReq}
    (hstep : Machine.exec .negotiate t = .next (movedTo st' k' u))
    (hu : u = { afterBus t req with mem := u.mem, res0 := u.res0, capCount := u.capCount, rxHdr := u.rxHdr })
    (hregs : negRegs u = r') : ∃ v : State, NegAt s (n + 1) (reqs ++ [req]) rest st' k' r' v := by
  have hic := h.oracle
  refine ⟨movedTo st' k' u, h.step hstep ?_ ?_ ?_ rfl rfl hregs⟩
  · rw [hu]
    simp [NegKeeps, movedTo, afterBus, icAfter, hic]
  · rw [hu]
    simp [Machine.requests, movedTo, busEvent]
  · rw [hu]
    simp [movedTo, scriptAfter, hic, h.script]

/-- A step without a transaction. -/
theorem NegAt.silent (h : NegAt s n reqs rest st k r t) (hstep : Machine.exec .negotiate t = .next u)
    (hkeep : NegKeeps t u) (htrace : u.trace = t.trace) (hscript : u.icScript = t.icScript) (hq : u.seq = st')
    (hm : u.mstep = BitVec.ofNat 8 k') (hregs : negRegs u = r') : NegAt s (n + 1) reqs rest st' k' r' u := by
  have hwhole := h.step (reqs' := []) hstep hkeep (by rw [htrace, List.append_nil]) (hscript.trans h.script) hq hm hregs
  rwa [List.append_nil] at hwhole

/-- R78 P0: the start of a poll, which may sample the clock. -/
theorem NegAt.pollEntry (h : NegAt s n reqs rest st 0 r t) {limit : Nat}
    (hentry : PollEntry (some limit) 1 t (Machine.exec .negotiate t)) :
    ∃ u : State, NegAt s (n + 1) reqs rest st 1 r u := by
  obtain ⟨hunbounded, hbounded⟩ := hentry
  cases hclk : t.clkPresent
  case false => exact ⟨_, h.silent (hunbounded (.inl hclk)) rfl rfl rfl h.place.seq_eq rfl h.regs⟩
  case true =>
    have hkeep : NegKeeps t { movedTo t.seq 1 (afterNow t) with tStart := clockNow t } ∧
        negRegs { movedTo t.seq 1 (afterNow t) with tStart := clockNow t } = negRegs t := by
      unfold afterNow
      split <;> exact ⟨rfl, rfl⟩
    refine ⟨_, h.silent (hbounded hclk (Option.some_ne_none limit)) hkeep.1 ?_ ?_ h.place.seq_eq rfl
      (hkeep.2.trans h.regs)⟩ <;> simp [movedTo]

/-! ## The states before WAIT_CAPS -/

/-- R81: the presence read, of an ID of the set. -/
theorem NegAt.presence {id : Byte} (h : NegAt s n reqs (.ok [id] :: rest) .presence k r t)
    (hid : id ∈ s.profile.idSet) :
    ∃ u : State, NegAt s (n + 1) (reqs ++ [.read s.profile.regDeviceId 1]) rest .waitAttach 0 r u := by
  rw [← h.profile_eq] at hid ⊢
  have hans : icAnswer t (.read t.profile.regDeviceId 1) = .ok [id] := icAnswer_scripted_read h.oracle h.script rfl
  have hread := ((presenceOutcomes.2 t 7#4 .negotiate _ (.inr ⟨rfl, rfl⟩) h.place rfl).2 id hans).2.2 hid rfl
  exact h.transact hread rfl h.regs

/-- R78 P1: the read of a poll that it satisfies. -/
theorem NegAt.pollRead {b : Byte} {reg : Byte} {satisfied : Byte → Prop} {limit : Nat} {code : BitVec 4}
    {leave : State → State} (h : NegAt s n reqs (.ok [b] :: rest) st k r t)
    (hpoll : PollResult (.read reg 1) satisfied (some limit) code leave t (Machine.exec .negotiate t))
    (hb : satisfied b) (hleave : leave (afterBus t (.read reg 1)) = movedTo st' k' (afterBus t (.read reg 1))) :
    ∃ u : State, NegAt s (n + 1) (reqs ++ [.read reg 1]) rest st' k' r u := by
  have hread := (hpoll.2 b (icAnswer_scripted_read h.oracle h.script rfl)).1 hb
  exact h.transact (hread.trans (congrArg _ hleave)) rfl h.regs

/-- R29: a micro-step that is a write alone. -/
theorem NegAt.write {reg : Byte} {w : List Byte} (h : NegAt s n reqs (acked :: rest) st k r t)
    (hwrite : WriteResult (.write reg w) (movedTo st' k') t (Machine.exec .negotiate t)) :
    ∃ u : State, NegAt s (n + 1) (reqs ++ [.write reg w]) rest st' k' r u :=
  h.transact (hwrite.2 (icAnswer_scripted_write h.oracle h.script)) rfl h.regs

/-- R84: WAIT_ATTACH, which `ON_INTERRUPT` leaves to WAIT_CAPS. -/
theorem NegAt.waitAttach {port : Byte} (h : NegAt s n reqs (.ok [port] :: rest) .waitAttach 0 r t)
    (hport : port &&& s.profile.attachMask ≠ 0#8) :
    ∃ u : State, NegAt s (n + 2) (reqs ++ [.read s.profile.regPortStatus 1]) rest
      (if s.onInterrupt = true then .waitCaps else .sinkReadyWait) 0 r u := by
  obtain ⟨u, hu⟩ := h.pollEntry ((Machine.waitAttach t h.place).1 h.start)
  rw [← hu.profile_eq] at hport ⊢
  refine hu.pollRead ((Machine.waitAttach u hu.place).2 hu.start) hport ?_
  rw [hu.operands.2.2.1]
  split <;> rfl

/-- R85, R86: ForceReset. -/
theorem NegAt.forceReset {fsm : Byte} (h : NegAt s n reqs (.ok [fsm] :: acked :: acked :: rest) .sinkReadyWait 0 r t)
    (hfsm : fsm = s.profile.peSnkReady) :
    ∃ u : State, NegAt s (n + 4) (reqs ++ [.read s.profile.regPeFsm 1] ++
      [wr s.profile.regTxHeader s.profile.softResetHdr] ++ [wr s.profile.regPdCmd s.profile.pdCmdSend]) rest
      .waitCaps 0 r u := by
  obtain ⟨t1, h1⟩ := h.pollEntry ((sinkReadyWait t h.place).1 h.start)
  obtain ⟨t2, h2⟩ := h1.pollRead ((sinkReadyWait t1 h1.place).2 h1.start) (h1.profile_eq ▸ hfsm) rfl
  obtain ⟨t3, h3⟩ := h2.write ((sendSoftReset t2 h2.place).1 h2.start)
  obtain ⟨t4, h4⟩ := h3.write ((sendSoftReset t3 h3.place).2 h3.start)
  rw [h1.profile_eq, h2.profile_eq, h3.profile_eq] at h4
  exact ⟨t4, h4⟩

end NegAt

end Sys2Proof.Machine
end

section
/-!
PROOFS about a successful NEGOTIATE (R87 to R92): the capture, the selection, the commit and the end.
-/

namespace Sys2Proof.Machine

theorem HasNegConfig.of_sameOperands {s t : State} {cfg : NegConfig} (hc : HasNegConfig s cfg)
    (h : SameOperands s t) : HasNegConfig t cfg := by
  obtain ⟨-, -, -, -, -, hmin, hminV, hmaxV, -⟩ := h
  simpa only [HasNegConfig, hmin, hminV, hmaxV] using hc

section NegAt

variable {s t : State} {n k : Nat} {reqs : List BusReq} {rest : List IcAnswer} {r : NegRegs}

/-! ## WAIT_CAPS and CAPTURE -/

/-- R87: the flag, a capabilities header and its byte count. -/
theorem NegAt.waitCaps {status b0 b1 count : Byte} {h16 : U16} {objects : Nat}
    (h : NegAt s n reqs (.ok [status] :: .ok [b0, b1] :: .ok [count] :: rest) .waitCaps 0 r t)
    (hstatus : status &&& s.profile.msgReceivedMask ≠ 0#8) (h16_eq : h16 = BitVec.ofNat 16 (b0.toNat + 256 * b1.toNat))
    (hobjects : objects = h16.toNat / 2 ^ s.profile.hdrCountLsb % 8) (hpos : objects ≠ 0)
    (htype : h16.toNat % 2 ^ s.profile.msgTypeBits = s.profile.srcCapType.toNat) (hcount : count.toNat = 4 * objects) :
    ∃ u : State, NegAt s (n + 4) (reqs ++ [.read s.profile.regPrtStatus 1] ++ [.read s.profile.regRxHeader 2] ++
      [.read s.profile.regRxByteCnt 1]) rest .capture 0
      { r with rxHdr := some h16, capCount := some (BitVec.ofNat 8 objects) } u := by
  obtain ⟨t0, h0⟩ := h.pollEntry ((Machine.waitCaps t h.place).1 h.start)
  have hflag := (((Machine.waitCaps t0 h0.place).2.1 h0.start _ rfl).2 status
    (icAnswer_scripted_read h0.oracle h0.script rfl)).2 (h0.profile_eq ▸ hstatus)
  obtain ⟨t1, h1⟩ := h0.transact hflag rfl h0.regs
  rw [← h1.profile_eq] at hobjects htype
  have hheader := (((Machine.waitCaps t1 h1.place).2.2.1 h1.start _ rfl).2 b0 b1
    (icAnswer_scripted_read h1.oracle h1.script rfl) h16 h16_eq).1 ⟨hobjects ▸ hpos, htype⟩
  obtain ⟨t2, h2⟩ := h1.transact (r' := { r with rxHdr := some h16 }) hheader rfl
    (congrArg (fun r : NegRegs => { r with rxHdr := some h16 }) h1.regs)
  rw [h1.profile_eq, ← h2.profile_eq] at hobjects
  have hsize := (((Machine.waitCaps t2 h2.place).2.2.2.1 h2.start h16 objects _
    (congrArg NegRegs.rxHdr h2.regs) hobjects rfl).2 count (icAnswer_scripted_read h2.oracle h2.script rfl)).2 hcount
  have h3 := h2.transact (r' := { r with rxHdr := some h16, capCount := some (BitVec.ofNat 8 objects) }) hsize rfl
    (congrArg (fun r : NegRegs => { r with capCount := some (BitVec.ofNat 8 objects) }) h2.regs)
  rw [h0.profile_eq, h1.profile_eq, h2.profile_eq] at h3
  exact h3

/-- R88: the capture read. -/
theorem NegAt.capture {objects : Nat} {data : List Byte} (h : NegAt s n reqs (.ok data :: rest) .capture k r t)
    (hcount : r.capCount = some (BitVec.ofNat 8 objects)) (hpos : objects ≠ 0) (hle : objects ≤ 7)
    (hlen : data.length = 4 * objects) :
    ∃ (m : Memory) (u : State), NegAt s (n + 1) (reqs ++ [.read s.profile.regRxData (4 * objects)]) rest .select 0
        { r with mem := m } u ∧
      ∀ a : Nat, Memory.get m a =
        if 0x20 ≤ a ∧ a < 0x20 + 4 * objects then data[a - 0x20]? else Memory.get r.mem a := by
  have hn : (BitVec.ofNat 8 objects).toNat = objects := Nat.mod_eq_of_lt (by omega)
  have hc : t.capCount = some (BitVec.ofNat 8 objects) := (congrArg NegRegs.capCount h.regs).trans hcount
  have hans : icAnswer t (.read t.profile.regRxData (4 * objects)) = .ok data :=
    icAnswer_scripted_read h.oracle h.script hlen
  obtain ⟨m, hstep, hget⟩ := (captureStoresTheBytes t (BitVec.ofNat 8 objects) _ h.place hc (by omega) (by omega)
    (by rw [hn])).2 data hans
  obtain ⟨u, hu⟩ := h.transact (r' := { r with mem := m }) hstep rfl
    (congrArg (fun r : NegRegs => { r with mem := m }) h.regs)
  rw [hn, show t.mem = r.mem from congrArg NegRegs.mem h.regs] at hget
  rw [h.profile_eq] at hu
  exact ⟨m, u, hu, hget⟩

/-! ## SELECT, COMMIT and RENEGOTIATE -/

/-- R89: the selection of the word that wins. -/
theorem NegAt.select {objects i : Nat} {cfg : NegConfig} {ws : Nat → U32} (h : NegAt s n reqs rest .select k r t)
    (hcount : r.capCount = some (BitVec.ofNat 8 objects)) (hle : objects ≤ 7) (hcfg : HasNegConfig s cfg)
    (hws : HoldsWords r.mem objects ws) (hwins : Wins s.profile cfg objects ws i) :
    ∃ u : State, NegAt s (n + 1) reqs rest .commit 0
      { r with
        selWord := ws i &&& 0x000FFFFF#32
        selBestP := BitVec.ofNat 32 (milliwatts (mA (ws i)) (mV (ws i)))
        selBestIdx := BitVec.ofNat 3 i } u := by
  have hn : (BitVec.ofNat 8 objects).toNat % 8 = objects := by
    rw [BitVec.toNat_ofNat]
    omega
  have hc : t.capCount = some (BitVec.ofNat 8 objects) := (congrArg NegRegs.capCount h.regs).trans hcount
  have hmem : t.mem = r.mem := congrArg NegRegs.mem h.regs
  obtain ⟨hpacked, sel, hstep⟩ := (selectState.2 t _ cfg ws h.place hc (hcfg.of_sameOperands h.operands)
    (by rwa [hn, hmem])).2 i (by rwa [hn, h.profile_eq])
  rw [hpacked] at hstep
  exact ⟨_, h.silent hstep rfl rfl rfl rfl rfl (congrArg (fun r : NegRegs => { r with
    selWord := ws i &&& 0x000FFFFF#32
    selBestP := BitVec.ofNat 32 (milliwatts (mA (ws i)) (mV (ws i)))
    selBestIdx := BitVec.ofNat 3 i }) h.regs)⟩

/-- R36: the bytes of a word, counted. -/
theorem bytes_eq_range_map (w : U32) :
    [BitVec.ofNat 8 w.toNat, BitVec.ofNat 8 (w.toNat / 2 ^ 8), BitVec.ofNat 8 (w.toNat / 2 ^ 16),
      BitVec.ofNat 8 (w.toNat / 2 ^ 24)] = (List.range 4).map fun k => w.extractLsb' (8 * k) 8 := by
  rw [← bytesOf32_eq_ofNat]
  rfl

/-- R90: the commit, and the first write of the soft reset. -/
theorem NegAt.commit (h : NegAt s n reqs (acked :: acked :: rest) .commit 0 r t) :
    ∃ u : State, NegAt s (n + 2) (reqs ++
        [.write s.profile.regSnkPdo3 ((List.range 4).map fun k => r.selWord.extractLsb' (8 * k) 8)] ++
        [wr s.profile.regTxHeader s.profile.softResetHdr]) rest .renegotiate 1 r u := by
  have hw : t.selWord = r.selWord := congrArg NegRegs.selWord h.regs
  have hcommit := (commitAndRenegotiate t).1 h.place
  rw [bytes_eq_range_map, hw] at hcommit
  obtain ⟨t1, h1⟩ := h.write hcommit
  obtain ⟨t2, h2⟩ := h1.write ((commitAndRenegotiate t1).2.1 h1.place h1.start)
  rw [h.profile_eq, h1.profile_eq] at h2
  exact ⟨t2, h2⟩

/-- R90: the last write, and the end with the results. -/
theorem NegAt.renegotiate (h : NegAt s n reqs (acked :: rest) .renegotiate 1 r t) :
    execN .negotiate (n + 1) s = .next (finished { afterBus t (wr s.profile.regPdCmd s.profile.pdCmdSend) with
      res0 := r.selWord, res1 := r.selBestP, res2 := BitVec.ofNat 32 r.selBestIdx.toNat }) := by
  have hans : icAnswer t (.write t.profile.regPdCmd [t.profile.pdCmdSend]) = .ok [] :=
    icAnswer_scripted_write h.oracle h.script
  rw [execN_trans h.exec (execN_one (((commitAndRenegotiate t).2.2 h.place h.start).2 hans)), ← h.regs, ← h.profile_eq]
  rfl

end NegAt

/-- R84 to R86: from the issue to WAIT_CAPS, with ForceReset but under `ON_INTERRUPT`. -/
theorem negotiate_reaches_waitCaps {s : State} {id port fsm : Byte} {rest : List IcAnswer} (hs : Issuable s)
    (hic : s.ic = .oracle) (hid : id ∈ s.profile.idSet) (hport : port &&& s.profile.attachMask ≠ 0#8)
    (hfsm : fsm = s.profile.peSnkReady)
    (hscript : s.icScript =
      [.ok [id], .ok [port]] ++ (if s.onInterrupt = true then [] else [.ok [fsm], acked, acked]) ++ rest) :
    ∃ t : State, NegAt s (if s.onInterrupt = true then 4 else 8)
      ([.read s.profile.regDeviceId 1, .read s.profile.regPortStatus 1] ++
        (if s.onInterrupt = true then [] else
          [.read s.profile.regPeFsm 1, wr s.profile.regTxHeader s.profile.softResetHdr,
            wr s.profile.regPdCmd s.profile.pdCmdSend])) rest .waitCaps 0 (negRegs s) t := by
  have h0 : NegAt s 1 [] s.icScript .presence 0 (negRegs s) (issued 7#4 .presence s) :=
    ⟨execN_one (hs.exec_eq rfl (by decide)), ⟨hs.1, hs.2.1, rfl, rfl, rfl⟩, rfl, hic, rfl, (List.append_nil _).symm,
      by simp [SameOperands, issued], rfl⟩
  rw [hscript] at h0
  by_cases hon : s.onInterrupt = true
  · simp only [if_pos hon] at h0 ⊢
    obtain ⟨t1, h1⟩ := h0.presence hid
    obtain ⟨t2, h2⟩ := h1.waitAttach hport
    rw [if_pos hon] at h2
    exact ⟨t2, h2⟩
  · simp only [if_neg hon] at h0 ⊢
    obtain ⟨t1, h1⟩ := h0.presence hid
    obtain ⟨t2, h2⟩ := h1.waitAttach hport
    rw [if_neg hon] at h2
    exact h2.forceReset hfsm

/-- R90: the commit of the word that wins, as a request. -/
def commitRequest (p : DeviceProfile) (w : U32) : BusReq :=
  .write p.regSnkPdo3 ((List.range 4).map fun k => (w &&& 0x000FFFFF#32).extractLsb' (8 * k) 8)

/-- R87 to R90: from WAIT_CAPS to the last write, with the capabilities of `n` words of which word `i` wins. -/
theorem NegAt.waitCaps_to_renegotiate {s t : State} {steps n i : Nat} {reqs : List BusReq} {rest : List IcAnswer}
    {r : NegRegs} {status b0 b1 count : Byte} {data : List Byte} {h16 : U16} {cfg : NegConfig} {ws : Nat → U32}
    (h : NegAt s steps reqs (.ok [status] :: .ok [b0, b1] :: .ok [count] :: .ok data :: acked :: acked :: rest)
      .waitCaps 0 r t)
    (hstatus : status &&& s.profile.msgReceivedMask ≠ 0#8) (h16_eq : h16 = BitVec.ofNat 16 (b0.toNat + 256 * b1.toNat))
    (hn : n = h16.toNat / 2 ^ s.profile.hdrCountLsb % 8) (hpos : n ≠ 0)
    (htype : h16.toNat % 2 ^ s.profile.msgTypeBits = s.profile.srcCapType.toNat) (hcount : count.toNat = 4 * n)
    (hlen : data.length = 4 * n) (hdata : ∀ j < n, ∀ k < 4, data[4 * j + k]? = some ((ws j).extractLsb' (8 * k) 8))
    (hcfg : HasNegConfig s cfg) (hwins : Wins s.profile cfg n ws i) :
    ∃ (m : Memory) (u : State), NegAt s (steps + 8)
        (reqs ++ [.read s.profile.regPrtStatus 1, .read s.profile.regRxHeader 2, .read s.profile.regRxByteCnt 1,
          .read s.profile.regRxData (4 * n), commitRequest s.profile (ws i),
          wr s.profile.regTxHeader s.profile.softResetHdr]) rest .renegotiate 1
        ⟨m, some (BitVec.ofNat 8 n), some h16, ws i &&& 0x000FFFFF#32,
          BitVec.ofNat 32 (milliwatts (mA (ws i)) (mV (ws i))), BitVec.ofNat 3 i⟩ u ∧
      ∀ a : Nat, Memory.get m a = if 0x20 ≤ a ∧ a < 0x20 + 4 * n then data[a - 0x20]? else Memory.get r.mem a := by
  have hle : n ≤ 7 := by omega
  obtain ⟨t1, h1⟩ := h.waitCaps hstatus h16_eq hn hpos htype hcount
  obtain ⟨m, t2, h2, hget⟩ := h1.capture rfl hpos hle hlen
  have hwords : HoldsWords m n ws := by
    intro j hj k hk
    rw [hget, if_pos (by omega), ← hdata j hj k hk]
    congr 1
    omega
  obtain ⟨t3, h3⟩ := h2.select rfl hle hcfg hwords hwins
  obtain ⟨t4, h4⟩ := h3.commit
  simp only [List.append_assoc, List.cons_append, List.nil_append] at h4
  exact ⟨m, t4, h4, hget⟩

/-- Settles O39: the states of NEGOTIATE in order. -/
theorem negotiateSuccessTrace : Obligations.NegotiateSuccessTrace := by
  intro s id port fsm status b0 b1 count cfg ws n i data rest hs hic hcfg hid hport hfsm hstatus hn hpos htype hcount
    hlen hdata hwins hscript
  have hheader : (BitVec.ofNat 16 (b0.toNat + 256 * b1.toNat)).toNat = b0.toNat + 256 * b1.toNat :=
    Nat.mod_eq_of_lt (by omega)
  have hparts : s.icScript = [.ok [id], .ok [port]] ++
      (if s.onInterrupt = true then [] else [.ok [fsm], acked, acked]) ++
      ([.ok [status], .ok [b0, b1], .ok [count], .ok data, acked, acked, acked] ++ rest) := by
    rw [hscript, List.append_assoc _ _ rest]
  obtain ⟨t0, h0⟩ := negotiate_reaches_waitCaps hs hic hid hport hfsm hparts
  obtain ⟨m, t, ht, hget⟩ := h0.waitCaps_to_renegotiate hstatus rfl (by rw [hheader]; exact hn) hpos
    (by rw [hheader]; exact htype) hcount hlen hdata hcfg hwins
  have hend := ht.renegotiate
  have hsteps : (if s.onInterrupt = true then 4 else 8) + 8 + 1 = if s.onInterrupt = true then 13 else 17 := by
    split <;> rfl
  have hi : (BitVec.ofNat 3 i).toNat = i := Nat.mod_eq_of_lt (by have := hwins.1; omega)
  rw [hsteps, hi] at hend
  refine ⟨_, hend, ?_, ?_, rfl, rfl, rfl, rfl, ht.place.2.1, rfl, ht.place.curCmd_eq, rfl, rfl, rfl,
    congrArg NegRegs.capCount ht.regs, congrArg NegRegs.rxHdr ht.regs, ?_, ht.operands⟩
  · have hlast : requests (t.trace ++ [busEvent t (wr s.profile.regPdCmd s.profile.pdCmdSend)]) =
        requests t.trace ++ [wr s.profile.regPdCmd s.profile.pdCmdSend] := by simp [requests, busEvent]
    refine hlast.trans ?_
    rw [ht.requests]
    simp only [commitRequest, List.append_assoc, List.cons_append, List.nil_append]
  · simp [finished, scriptAfter, ht.oracle, ht.script]
  · have hmem : t.mem = m := congrArg NegRegs.mem ht.regs
    exact fun a => (congrArg (fun m => Memory.get m a) hmem).trans (hget a)

end Sys2Proof.Machine
end
